-- ==== Sys2Proof/Word.lean ====
section
/-!
DEFINITION. The word and byte types of the megamodule and their plainest arithmetic.

The registers are 32 bits wide (spec/10_state.md R22) and memory is byte-addressed (spec/20_memory.md R103).
-/
namespace Sys2Proof

/-- A 32-bit register value or address (spec/20_memory.md R100, R103). -/
abbrev Word := BitVec 32

/-- One byte of memory (spec/20_memory.md R103). -/
abbrev Byte := BitVec 8

/-- An address range of the platform: `base .. base + size - 1`. -/
structure Span where
  base : Nat
  size : Nat
  deriving DecidableEq, Repr

/-- `a` lies in the range. -/
def Span.has (r : Span) (a : Nat) : Bool := r.base ≤ a && a < r.base + r.size

/-- `a` lies in one of the ranges. -/
def Span.anyHas (l : List Span) (a : Nat) : Bool := l.any fun r => r.has a

/-- One bit as a word: `b` at bit `i`. -/
def bitAt (i : Nat) (b : Bool) : Word := if b then BitVec.ofNat 32 (2 ^ i) else 0#32

end Sys2Proof
end

