-- ==== Sys2Proof/Config.lean ====
section
/-!
DEFINITION. What an implementation fixes: the platform parameters of spec/00_scope.md R5, the reference device, the
free values the spec leaves open (spec/93_implementation_defined.md), and the two possible addresses of `AEGMUX0`.
-/
namespace Sys2Proof

/-- The device's endian mode (spec/20_memory.md R104). The source names both and defines neither; the byte numbering
is general knowledge G3 (PRESUMED, unsafe: notes/assumptions/9.md). -/
inductive Endian
  | little
  | big
  deriving DecidableEq, Repr

/-- The event a refused user write outside L1P, L1D and L2 raises: the parameter `SYS_REGFAULT_EVENT`
(spec/60_exceptions.md R528). -/
inductive RegFaultEvent
  | none
  | sysCmpa
  | emcCmpa
  deriving DecidableEq, Repr

/-- The parameter `AEGMUX_BASE` (spec/45_intc.md R429, spec/90_conflicts.md C24; notes/assumptions/33.md). -/
inductive AegmuxBase
  /-- 0181 0140h, the printed address. -/
  | printed
  /-- 0180 0140h, which the order of the table suggests. -/
  | inOrder
  deriving DecidableEq, Repr

/-- The address of `AEGMUX0`. -/
def AegmuxBase.addr : AegmuxBase → Nat
  | .printed => 0x01810140
  | .inOrder => 0x01800140

/-- The parameters of one level 1 memory (spec/00_scope.md R5, the `L1P_…` and `L1D_…` rows). -/
structure L1Params where
  base      : Nat
  r0Size    : Nat
  r1Size    : Nat
  rom       : List Span
  maxCache  : Nat
  modeReset : BitVec 3
  page0     : Nat
  page1     : Nat
  keyRegs   : List Nat
  mppaReset : Vector Word 32
  deriving DecidableEq, Repr

/-- The parameters of the level 2 memory (spec/00_scope.md R5, the `L2_…` rows). `cacheRange` gives `L2_CACHE_RANGE(S)`
as pairs of a cache size and the base of its range; a size not listed takes the top of port 0. -/
structure L2Params where
  p0Base     : Nat
  p0Size     : Nat
  p1Base     : Nat
  p1Size     : Nat
  rom        : List Span
  maxCache   : Nat
  cacheRange : List (Nat × Nat)
  page0      : Nat
  page1      : Nat
  keyRegs    : List Nat
  mppaReset  : Vector Word 64
  pdPages    : Vector Span 4
  numMM      : BitVec 4
  mmid       : BitVec 4
  deriving DecidableEq, Repr

/-- The platform: every named parameter of spec/00_scope.md R5 that a functional rule reads (the port widths and the wait
states are timing only), fixed before reset and changed by no step. `initial` lists the bytes of RAM, ROM and external memory
that the platform chooses for a run, a later entry over an earlier one (spec/70_reset_and_hazards.md R566). -/
structure Platform where
  l1p           : L1Params
  l1d           : L1Params
  l2            : L2Params
  extPerm       : List (Span × BitVec 16)
  cfgRange      : List Span
  cpuId         : Nat
  idWidth       : Nat
  hasNmi        : Bool
  hasAet        : Bool
  aegmuxBase    : AegmuxBase
  hasMp         : Bool
  revId         : BitVec 16
  endian        : Endian
  regFaultEvent : RegFaultEvent
  initial       : List (Nat × Byte)
  deriving DecidableEq, Repr

namespace Config

/-- A value of a word the spec leaves unspecified, one for each stamp (spec/93_implementation_defined.md U5, U6, U7, U17,
U19). It has no body: nothing can be proved of it (DESIGN CHOICE, safe: notes/assumptions/6.md). -/
opaque freeWord : Nat → Word

/-- A choice the spec leaves unspecified, one for each stamp (spec/93_implementation_defined.md U1, U7, U12, U16). -/
opaque freeBool : Nat → Bool

/-- The contents of a byte of memory the spec leaves unspecified, by stamp and address (spec/93_implementation_defined.md
U4, U17). -/
opaque freeByte : Nat → Nat → Byte

/-- The reference device of spec/95_test_vectors.md (DESIGN CHOICE, unsafe: notes/assumptions/3.md). -/
def ref : Platform where
  l1p := { base := 0x00E00000, r0Size := 0, r1Size := 0x8000, rom := [], maxCache := 0x8000, modeReset := 0#3
           page0 := 0x800, page1 := 0x800, keyRegs := [0, 1], mppaReset := Vector.replicate 32 0x0000FF3F#32 }
  l1d := { base := 0x00F00000, r0Size := 0, r1Size := 0x8000, rom := [], maxCache := 0x8000, modeReset := 0#3
           page0 := 0x800, page1 := 0x800, keyRegs := [0, 1], mppaReset := Vector.replicate 32 0x0000FF36#32 }
  l2 := { p0Base := 0x00800000, p0Size := 0x40000, p1Base := 0, p1Size := 0, rom := [], maxCache := 0x40000
          cacheRange := [], page0 := 0x2000, page1 := 0, keyRegs := [0, 1]
          mppaReset := Vector.replicate 64 0x0000FF3F#32
          pdPages := #v[⟨0x00800000, 0x20000⟩, ⟨0x00820000, 0x20000⟩, ⟨0, 0⟩, ⟨0, 0⟩]
          numMM := 0#4, mmid := 0#4 }
  extPerm := []
  cfgRange := [⟨0x01C00000, 0x10000⟩]
  cpuId := 0
  idWidth := 4
  hasNmi := true
  hasAet := true
  aegmuxBase := .printed
  hasMp := true
  revId := 0#16
  endian := .little
  regFaultEvent := .none
  initial := []

end Config

end Sys2Proof
end

