-- ==== Sys2Proof/Syntax.lean ====
section
/-!
DEFINITION. The register commands: one constructor for every row of spec/opcode_table.json (spec/30_encoding.md R152 to R154).

A read command carries the index of its register array, a write command also the 32-bit value stored. The privilege and
the requestor ID of a command are `CPU.priv` and `CPU.id` at the time of the access (R152) and stand in the state.
-/
namespace Sys2Proof

/-- A register command (spec/30_encoding.md R152): a 32-bit CPU load or store at the address of one megamodule register.
For each register the docstring names the rules of its read and of its write. -/
inductive Instr where
  /-- `EVTFLAGn.read`, R416. -/
  | evtflagRead (n : Fin 4)
  /-- `EVTFLAGn.write`, R416. -/
  | evtflagWrite (n : Fin 4) (v : Word)
  /-- `EVTSETn.read`, R414. -/
  | evtsetRead (n : Fin 4)
  /-- `EVTSETn.write`, R414. -/
  | evtsetWrite (n : Fin 4) (v : Word)
  /-- `EVTCLRn.read`, R415. -/
  | evtclrRead (n : Fin 4)
  /-- `EVTCLRn.write`, R415. -/
  | evtclrWrite (n : Fin 4) (v : Word)
  /-- `EVTMASKn.read`, R418. -/
  | evtmaskRead (n : Fin 4)
  /-- `EVTMASKn.write`, R418. -/
  | evtmaskWrite (n : Fin 4) (v : Word)
  /-- `MEVTFLAGn.read`, R419. -/
  | mevtflagRead (n : Fin 4)
  /-- `MEVTFLAGn.write`, R419. -/
  | mevtflagWrite (n : Fin 4) (v : Word)
  /-- `EXPMASKn.read`, R427. -/
  | expmaskRead (n : Fin 4)
  /-- `EXPMASKn.write`, R427. -/
  | expmaskWrite (n : Fin 4) (v : Word)
  /-- `MEXPFLAGn.read`, R427. -/
  | mexpflagRead (n : Fin 4)
  /-- `MEXPFLAGn.write`, R427. -/
  | mexpflagWrite (n : Fin 4) (v : Word)
  /-- `INTMUXn.read`, R422. -/
  | intmuxRead (n : Fin 4)
  /-- `INTMUXn.write`, R422. -/
  | intmuxWrite (n : Fin 4) (v : Word)
  /-- `INTXSTAT.read`, R425. -/
  | intxstatRead
  /-- `INTXSTAT.write`, R425. -/
  | intxstatWrite (v : Word)
  /-- `INTXCLR.read`, R425. -/
  | intxclrRead
  /-- `INTXCLR.write`, R425. -/
  | intxclrWrite (v : Word)
  /-- `INTDMASK.read`, R425. -/
  | intdmaskRead
  /-- `INTDMASK.write`, R425. -/
  | intdmaskWrite (v : Word)
  /-- `AEGMUXn.read`, R429. -/
  | aegmuxRead (n : Fin 2)
  /-- `AEGMUXn.write`, R429. -/
  | aegmuxWrite (n : Fin 2) (v : Word)
  /-- `PDCCMD.read`, R505. -/
  | pdccmdRead
  /-- `PDCCMD.write`, R505. -/
  | pdccmdWrite (v : Word)
  /-- `MM_REVID.read`, R506. -/
  | mmRevidRead
  /-- `MM_REVID.write`, R506. -/
  | mmRevidWrite (v : Word)
  /-- `IDMA0_STAT.read`, R362. -/
  | idma0StatRead
  /-- `IDMA0_STAT.write`, R362. -/
  | idma0StatWrite (v : Word)
  /-- `IDMA1_STAT.read`, R362. -/
  | idma1StatRead
  /-- `IDMA1_STAT.write`, R362. -/
  | idma1StatWrite (v : Word)
  /-- `IDMA0_MASK.read`, R361. -/
  | idma0MaskRead
  /-- `IDMA0_MASK.write`, R361. -/
  | idma0MaskWrite (v : Word)
  /-- `IDMA0_SOURCE.read`, R361. -/
  | idma0SourceRead
  /-- `IDMA0_SOURCE.write`, R361. -/
  | idma0SourceWrite (v : Word)
  /-- `IDMA0_DEST.read`, R361. -/
  | idma0DestRead
  /-- `IDMA0_DEST.write`, R361. -/
  | idma0DestWrite (v : Word)
  /-- `IDMA0_COUNT.read`, R357. -/
  | idma0CountRead
  /-- `IDMA0_COUNT.write`, R357. -/
  | idma0CountWrite (v : Word)
  /-- `IDMA1_SOURCE.read`, R367. -/
  | idma1SourceRead
  /-- `IDMA1_SOURCE.write`, R367. -/
  | idma1SourceWrite (v : Word)
  /-- `IDMA1_DEST.read`, R367. -/
  | idma1DestRead
  /-- `IDMA1_DEST.write`, R367. -/
  | idma1DestWrite (v : Word)
  /-- `IDMA1_COUNT.read`, R364. -/
  | idma1CountRead
  /-- `IDMA1_COUNT.write`, R364. -/
  | idma1CountWrite (v : Word)
  /-- `CPUARBE.read`, R399. -/
  | cpuarbeRead
  /-- `CPUARBE.write`, R399. -/
  | cpuarbeWrite (v : Word)
  /-- `IDMAARBE.read`, R399. -/
  | idmaarbeRead
  /-- `IDMAARBE.write`, R399. -/
  | idmaarbeWrite (v : Word)
  /-- `SDMAARBE.read`, R399. -/
  | sdmaarbeRead
  /-- `SDMAARBE.write`, R399. -/
  | sdmaarbeWrite (v : Word)
  /-- `MDMAARBE.read`, R399. -/
  | mdmaarbeRead
  /-- `MDMAARBE.write`, R399. -/
  | mdmaarbeWrite (v : Word)
  /-- `CPUARBU.read`, R399. -/
  | cpuarbuRead
  /-- `CPUARBU.write`, R399. -/
  | cpuarbuWrite (v : Word)
  /-- `IDMAARBU.read`, R399. -/
  | idmaarbuRead
  /-- `IDMAARBU.write`, R399. -/
  | idmaarbuWrite (v : Word)
  /-- `SDMAARBU.read`, R399. -/
  | sdmaarbuRead
  /-- `SDMAARBU.write`, R399. -/
  | sdmaarbuWrite (v : Word)
  /-- `UCARBU.read`, R399. -/
  | ucarbuRead
  /-- `UCARBU.write`, R399. -/
  | ucarbuWrite (v : Word)
  /-- `CPUARBD.read`, R399. -/
  | cpuarbdRead
  /-- `CPUARBD.write`, R399. -/
  | cpuarbdWrite (v : Word)
  /-- `IDMAARBD.read`, R399. -/
  | idmaarbdRead
  /-- `IDMAARBD.write`, R399. -/
  | idmaarbdWrite (v : Word)
  /-- `SDMAARBD.read`, R399. -/
  | sdmaarbdRead
  /-- `SDMAARBD.write`, R399. -/
  | sdmaarbdWrite (v : Word)
  /-- `UCARBD.read`, R399. -/
  | ucarbdRead
  /-- `UCARBD.write`, R399. -/
  | ucarbdWrite (v : Word)
  /-- `BUSERR.read`, R508. -/
  | buserrRead
  /-- `BUSERR.write`, R508. -/
  | buserrWrite (v : Word)
  /-- `BUSERRCLR.read`, R508. -/
  | buserrclrRead
  /-- `BUSERRCLR.write`, R508. -/
  | buserrclrWrite (v : Word)
  /-- `L2CFG.read`, R297. -/
  | l2cfgRead
  /-- `L2CFG.write`, R296. -/
  | l2cfgWrite (v : Word)
  /-- `L1PCFG.read`, R180. -/
  | l1pcfgRead
  /-- `L1PCFG.write`, R179. -/
  | l1pcfgWrite (v : Word)
  /-- `L1PCC.read`, R184. -/
  | l1pccRead
  /-- `L1PCC.write`, R183. -/
  | l1pccWrite (v : Word)
  /-- `L1DCFG.read`, R232. -/
  | l1dcfgRead
  /-- `L1DCFG.write`, R231. -/
  | l1dcfgWrite (v : Word)
  /-- `L1DCC.read`, R236. -/
  | l1dccRead
  /-- `L1DCC.write`, R235. -/
  | l1dccWrite (v : Word)
  /-- `L2WBAR.read`, R40. -/
  | l2wbarRead
  /-- `L2WBAR.write`, R312. -/
  | l2wbarWrite (v : Word)
  /-- `L2WWC.read`, R312. -/
  | l2wwcRead
  /-- `L2WWC.write`, R312. -/
  | l2wwcWrite (v : Word)
  /-- `L2WIBAR.read`, R41. -/
  | l2wibarRead
  /-- `L2WIBAR.write`, R313. -/
  | l2wibarWrite (v : Word)
  /-- `L2WIWC.read`, R313. -/
  | l2wiwcRead
  /-- `L2WIWC.write`, R313. -/
  | l2wiwcWrite (v : Word)
  /-- `L2IBAR.read`, R42. -/
  | l2ibarRead
  /-- `L2IBAR.write`, R314. -/
  | l2ibarWrite (v : Word)
  /-- `L2IWC.read`, R314. -/
  | l2iwcRead
  /-- `L2IWC.write`, R314. -/
  | l2iwcWrite (v : Word)
  /-- `L1PIBAR.read`, R26. -/
  | l1pibarRead
  /-- `L1PIBAR.write`, R187. -/
  | l1pibarWrite (v : Word)
  /-- `L1PIWC.read`, R188. -/
  | l1piwcRead
  /-- `L1PIWC.write`, R187. -/
  | l1piwcWrite (v : Word)
  /-- `L1DWIBAR.read`, R35. -/
  | l1dwibarRead
  /-- `L1DWIBAR.write`, R244. -/
  | l1dwibarWrite (v : Word)
  /-- `L1DWIWC.read`, R244. -/
  | l1dwiwcRead
  /-- `L1DWIWC.write`, R244. -/
  | l1dwiwcWrite (v : Word)
  /-- `L1DWBAR.read`, R34. -/
  | l1dwbarRead
  /-- `L1DWBAR.write`, R243. -/
  | l1dwbarWrite (v : Word)
  /-- `L1DWWC.read`, R243. -/
  | l1dwwcRead
  /-- `L1DWWC.write`, R243. -/
  | l1dwwcWrite (v : Word)
  /-- `L1DIBAR.read`, R33. -/
  | l1dibarRead
  /-- `L1DIBAR.write`, R242. -/
  | l1dibarWrite (v : Word)
  /-- `L1DIWC.read`, R242. -/
  | l1diwcRead
  /-- `L1DIWC.write`, R242. -/
  | l1diwcWrite (v : Word)
  /-- `L2WB.read`, R309. -/
  | l2wbRead
  /-- `L2WB.write`, R309. -/
  | l2wbWrite (v : Word)
  /-- `L2WBINV.read`, R310. -/
  | l2wbinvRead
  /-- `L2WBINV.write`, R310. -/
  | l2wbinvWrite (v : Word)
  /-- `L2INV.read`, R311. -/
  | l2invRead
  /-- `L2INV.write`, R311. -/
  | l2invWrite (v : Word)
  /-- `L1PINV.read`, R186. -/
  | l1pinvRead
  /-- `L1PINV.write`, R185. -/
  | l1pinvWrite (v : Word)
  /-- `L1DWB.read`, R239. -/
  | l1dwbRead
  /-- `L1DWB.write`, R239. -/
  | l1dwbWrite (v : Word)
  /-- `L1DWBINV.read`, R240. -/
  | l1dwbinvRead
  /-- `L1DWBINV.write`, R240. -/
  | l1dwbinvWrite (v : Word)
  /-- `L1DINV.read`, R238. -/
  | l1dinvRead
  /-- `L1DINV.write`, R238. -/
  | l1dinvWrite (v : Word)
  /-- `MARn.read`, R317. -/
  | marRead (n : Fin 256)
  /-- `MARn.write`, R317. -/
  | marWrite (n : Fin 256) (v : Word)
  /-- `L2MPFAR.read`, R479. -/
  | l2mpfarRead
  /-- `L2MPFAR.write`, R479. -/
  | l2mpfarWrite (v : Word)
  /-- `L2MPFSR.read`, R479. -/
  | l2mpfsrRead
  /-- `L2MPFSR.write`, R479. -/
  | l2mpfsrWrite (v : Word)
  /-- `L2MPFCR.read`, R479. -/
  | l2mpfcrRead
  /-- `L2MPFCR.write`, R479. -/
  | l2mpfcrWrite (v : Word)
  /-- `L2MPLKn.read`, R483. -/
  | l2mplkRead (n : Fin 4)
  /-- `L2MPLKn.write`, R483. -/
  | l2mplkWrite (n : Fin 4) (v : Word)
  /-- `L2MPLKCMD.read`, R482. -/
  | l2mplkcmdRead
  /-- `L2MPLKCMD.write`, R482. -/
  | l2mplkcmdWrite (v : Word)
  /-- `L2MPLKSTAT.read`, R487. -/
  | l2mplkstatRead
  /-- `L2MPLKSTAT.write`, R487. -/
  | l2mplkstatWrite (v : Word)
  /-- `L1PMPFAR.read`, R479. -/
  | l1pmpfarRead
  /-- `L1PMPFAR.write`, R479. -/
  | l1pmpfarWrite (v : Word)
  /-- `L1PMPFSR.read`, R479. -/
  | l1pmpfsrRead
  /-- `L1PMPFSR.write`, R479. -/
  | l1pmpfsrWrite (v : Word)
  /-- `L1PMPFCR.read`, R479. -/
  | l1pmpfcrRead
  /-- `L1PMPFCR.write`, R479. -/
  | l1pmpfcrWrite (v : Word)
  /-- `L1PMPLKn.read`, R483. -/
  | l1pmplkRead (n : Fin 4)
  /-- `L1PMPLKn.write`, R483. -/
  | l1pmplkWrite (n : Fin 4) (v : Word)
  /-- `L1PMPLKCMD.read`, R482. -/
  | l1pmplkcmdRead
  /-- `L1PMPLKCMD.write`, R482. -/
  | l1pmplkcmdWrite (v : Word)
  /-- `L1PMPLKSTAT.read`, R487. -/
  | l1pmplkstatRead
  /-- `L1PMPLKSTAT.write`, R487. -/
  | l1pmplkstatWrite (v : Word)
  /-- `L1DMPFAR.read`, R479. -/
  | l1dmpfarRead
  /-- `L1DMPFAR.write`, R479. -/
  | l1dmpfarWrite (v : Word)
  /-- `L1DMPFSR.read`, R479. -/
  | l1dmpfsrRead
  /-- `L1DMPFSR.write`, R479. -/
  | l1dmpfsrWrite (v : Word)
  /-- `L1DMPFCR.read`, R479. -/
  | l1dmpfcrRead
  /-- `L1DMPFCR.write`, R479. -/
  | l1dmpfcrWrite (v : Word)
  /-- `L1DMPLKn.read`, R483. -/
  | l1dmplkRead (n : Fin 4)
  /-- `L1DMPLKn.write`, R483. -/
  | l1dmplkWrite (n : Fin 4) (v : Word)
  /-- `L1DMPLKCMD.read`, R482. -/
  | l1dmplkcmdRead
  /-- `L1DMPLKCMD.write`, R482. -/
  | l1dmplkcmdWrite (v : Word)
  /-- `L1DMPLKSTAT.read`, R487. -/
  | l1dmplkstatRead
  /-- `L1DMPLKSTAT.write`, R487. -/
  | l1dmplkstatWrite (v : Word)
  /-- `L2MPPAn.read`, R345. -/
  | l2mppaRead (n : Fin 64)
  /-- `L2MPPAn.write`, R345. -/
  | l2mppaWrite (n : Fin 64) (v : Word)
  /-- `L1PMPPAn.read`, R210. -/
  | l1pmppaRead (n : Fin 32)
  /-- `L1PMPPAn.write`, R210. -/
  | l1pmppaWrite (n : Fin 32) (v : Word)
  /-- `L1DMPPAn.read`, R268. -/
  | l1dmppaRead (n : Fin 32)
  /-- `L1DMPPAn.write`, R268. -/
  | l1dmppaWrite (n : Fin 32) (v : Word)
  /-- `L2PDWAKEn.read`, R337. -/
  | l2pdwakeRead (n : Fin 2)
  /-- `L2PDWAKEn.write`, R337. -/
  | l2pdwakeWrite (n : Fin 2) (v : Word)
  /-- `L2PDSLEEPn.read`, R338. -/
  | l2pdsleepRead (n : Fin 2)
  /-- `L2PDSLEEPn.write`, R338. -/
  | l2pdsleepWrite (n : Fin 2) (v : Word)
  /-- `L2PDSTATn.read`, R339. -/
  | l2pdstatRead (n : Fin 2)
  /-- `L2PDSTATn.write`, R339. -/
  | l2pdstatWrite (n : Fin 2) (v : Word)
  deriving DecidableEq, Repr

end Sys2Proof
end

