-- ==== Sys2Proof/WellFormed.lean ====
section
/-!
DEFINITION. Well-formed instructions: what the operands of a register command may be beyond their types.
-/
namespace Sys2Proof

/-- Well-formedness of a register command. The legal index values of spec/30_encoding.md R153 are the index types, but
for `INTMUXn`: n runs 1 to 3, and `n = 0` is not a register (spec/10_state.md R98). Every 32-bit value is a legal operand
of every write (R152). -/
def Instr.wellFormed : Instr → Bool
  | .intmuxRead n => n ≠ 0
  | .intmuxWrite n _ => n ≠ 0
  | .evtflagRead _ => true
  | .evtflagWrite _ _ => true
  | .evtsetRead _ => true
  | .evtsetWrite _ _ => true
  | .evtclrRead _ => true
  | .evtclrWrite _ _ => true
  | .evtmaskRead _ => true
  | .evtmaskWrite _ _ => true
  | .mevtflagRead _ => true
  | .mevtflagWrite _ _ => true
  | .expmaskRead _ => true
  | .expmaskWrite _ _ => true
  | .mexpflagRead _ => true
  | .mexpflagWrite _ _ => true
  | .intxstatRead => true
  | .intxstatWrite _ => true
  | .intxclrRead => true
  | .intxclrWrite _ => true
  | .intdmaskRead => true
  | .intdmaskWrite _ => true
  | .aegmuxRead _ => true
  | .aegmuxWrite _ _ => true
  | .pdccmdRead => true
  | .pdccmdWrite _ => true
  | .mmRevidRead => true
  | .mmRevidWrite _ => true
  | .idma0StatRead => true
  | .idma0StatWrite _ => true
  | .idma1StatRead => true
  | .idma1StatWrite _ => true
  | .idma0MaskRead => true
  | .idma0MaskWrite _ => true
  | .idma0SourceRead => true
  | .idma0SourceWrite _ => true
  | .idma0DestRead => true
  | .idma0DestWrite _ => true
  | .idma0CountRead => true
  | .idma0CountWrite _ => true
  | .idma1SourceRead => true
  | .idma1SourceWrite _ => true
  | .idma1DestRead => true
  | .idma1DestWrite _ => true
  | .idma1CountRead => true
  | .idma1CountWrite _ => true
  | .cpuarbeRead => true
  | .cpuarbeWrite _ => true
  | .idmaarbeRead => true
  | .idmaarbeWrite _ => true
  | .sdmaarbeRead => true
  | .sdmaarbeWrite _ => true
  | .mdmaarbeRead => true
  | .mdmaarbeWrite _ => true
  | .cpuarbuRead => true
  | .cpuarbuWrite _ => true
  | .idmaarbuRead => true
  | .idmaarbuWrite _ => true
  | .sdmaarbuRead => true
  | .sdmaarbuWrite _ => true
  | .ucarbuRead => true
  | .ucarbuWrite _ => true
  | .cpuarbdRead => true
  | .cpuarbdWrite _ => true
  | .idmaarbdRead => true
  | .idmaarbdWrite _ => true
  | .sdmaarbdRead => true
  | .sdmaarbdWrite _ => true
  | .ucarbdRead => true
  | .ucarbdWrite _ => true
  | .buserrRead => true
  | .buserrWrite _ => true
  | .buserrclrRead => true
  | .buserrclrWrite _ => true
  | .l2cfgRead => true
  | .l2cfgWrite _ => true
  | .l1pcfgRead => true
  | .l1pcfgWrite _ => true
  | .l1pccRead => true
  | .l1pccWrite _ => true
  | .l1dcfgRead => true
  | .l1dcfgWrite _ => true
  | .l1dccRead => true
  | .l1dccWrite _ => true
  | .l2wbarRead => true
  | .l2wbarWrite _ => true
  | .l2wwcRead => true
  | .l2wwcWrite _ => true
  | .l2wibarRead => true
  | .l2wibarWrite _ => true
  | .l2wiwcRead => true
  | .l2wiwcWrite _ => true
  | .l2ibarRead => true
  | .l2ibarWrite _ => true
  | .l2iwcRead => true
  | .l2iwcWrite _ => true
  | .l1pibarRead => true
  | .l1pibarWrite _ => true
  | .l1piwcRead => true
  | .l1piwcWrite _ => true
  | .l1dwibarRead => true
  | .l1dwibarWrite _ => true
  | .l1dwiwcRead => true
  | .l1dwiwcWrite _ => true
  | .l1dwbarRead => true
  | .l1dwbarWrite _ => true
  | .l1dwwcRead => true
  | .l1dwwcWrite _ => true
  | .l1dibarRead => true
  | .l1dibarWrite _ => true
  | .l1diwcRead => true
  | .l1diwcWrite _ => true
  | .l2wbRead => true
  | .l2wbWrite _ => true
  | .l2wbinvRead => true
  | .l2wbinvWrite _ => true
  | .l2invRead => true
  | .l2invWrite _ => true
  | .l1pinvRead => true
  | .l1pinvWrite _ => true
  | .l1dwbRead => true
  | .l1dwbWrite _ => true
  | .l1dwbinvRead => true
  | .l1dwbinvWrite _ => true
  | .l1dinvRead => true
  | .l1dinvWrite _ => true
  | .marRead _ => true
  | .marWrite _ _ => true
  | .l2mpfarRead => true
  | .l2mpfarWrite _ => true
  | .l2mpfsrRead => true
  | .l2mpfsrWrite _ => true
  | .l2mpfcrRead => true
  | .l2mpfcrWrite _ => true
  | .l2mplkRead _ => true
  | .l2mplkWrite _ _ => true
  | .l2mplkcmdRead => true
  | .l2mplkcmdWrite _ => true
  | .l2mplkstatRead => true
  | .l2mplkstatWrite _ => true
  | .l1pmpfarRead => true
  | .l1pmpfarWrite _ => true
  | .l1pmpfsrRead => true
  | .l1pmpfsrWrite _ => true
  | .l1pmpfcrRead => true
  | .l1pmpfcrWrite _ => true
  | .l1pmplkRead _ => true
  | .l1pmplkWrite _ _ => true
  | .l1pmplkcmdRead => true
  | .l1pmplkcmdWrite _ => true
  | .l1pmplkstatRead => true
  | .l1pmplkstatWrite _ => true
  | .l1dmpfarRead => true
  | .l1dmpfarWrite _ => true
  | .l1dmpfsrRead => true
  | .l1dmpfsrWrite _ => true
  | .l1dmpfcrRead => true
  | .l1dmpfcrWrite _ => true
  | .l1dmplkRead _ => true
  | .l1dmplkWrite _ _ => true
  | .l1dmplkcmdRead => true
  | .l1dmplkcmdWrite _ => true
  | .l1dmplkstatRead => true
  | .l1dmplkstatWrite _ => true
  | .l2mppaRead _ => true
  | .l2mppaWrite _ _ => true
  | .l1pmppaRead _ => true
  | .l1pmppaWrite _ _ => true
  | .l1dmppaRead _ => true
  | .l1dmppaWrite _ _ => true
  | .l2pdwakeRead _ => true
  | .l2pdwakeWrite _ _ => true
  | .l2pdsleepRead _ => true
  | .l2pdsleepWrite _ _ => true
  | .l2pdstatRead _ => true
  | .l2pdstatWrite _ _ => true

/-- Well-formedness as a proposition. -/
abbrev Instr.WellFormed (i : Instr) : Prop := i.wellFormed = true

end Sys2Proof
end

