-- ==== Sys2Proof/Decode.lean ====
section
/-!
DEFINITION. Decoding and encoding of register commands.

Decoding a command is the match of its address (spec/30_encoding.md R152). The container of a command is the model's own
(DESIGN CHOICE, safe: notes/assumptions/1.md): three 32-bit words, the address `A`, the direction (0 read, 1 write) and
the value stored (0 for a read). The read row and the write row of one register have the same match and mask; a table
word, whose other words are 0, is the read (notes/assumptions/2.md).
-/
namespace Sys2Proof

/-- The registers of the internal configuration space (spec/10_state.md R97). -/
inductive Reg where
  | evtflag (n : Fin 4)
  | evtset (n : Fin 4)
  | evtclr (n : Fin 4)
  | evtmask (n : Fin 4)
  | mevtflag (n : Fin 4)
  | expmask (n : Fin 4)
  | mexpflag (n : Fin 4)
  | intmux (n : Fin 4)
  | intxstat
  | intxclr
  | intdmask
  | aegmux (n : Fin 2)
  | pdccmd
  | mmRevid
  | idma0Stat
  | idma1Stat
  | idma0Mask
  | idma0Source
  | idma0Dest
  | idma0Count
  | idma1Source
  | idma1Dest
  | idma1Count
  | cpuarbe
  | idmaarbe
  | sdmaarbe
  | mdmaarbe
  | cpuarbu
  | idmaarbu
  | sdmaarbu
  | ucarbu
  | cpuarbd
  | idmaarbd
  | sdmaarbd
  | ucarbd
  | buserr
  | buserrclr
  | l2cfg
  | l1pcfg
  | l1pcc
  | l1dcfg
  | l1dcc
  | l2wbar
  | l2wwc
  | l2wibar
  | l2wiwc
  | l2ibar
  | l2iwc
  | l1pibar
  | l1piwc
  | l1dwibar
  | l1dwiwc
  | l1dwbar
  | l1dwwc
  | l1dibar
  | l1diwc
  | l2wb
  | l2wbinv
  | l2inv
  | l1pinv
  | l1dwb
  | l1dwbinv
  | l1dinv
  | mar (n : Fin 256)
  | l2mpfar
  | l2mpfsr
  | l2mpfcr
  | l2mplk (n : Fin 4)
  | l2mplkcmd
  | l2mplkstat
  | l1pmpfar
  | l1pmpfsr
  | l1pmpfcr
  | l1pmplk (n : Fin 4)
  | l1pmplkcmd
  | l1pmplkstat
  | l1dmpfar
  | l1dmpfsr
  | l1dmpfcr
  | l1dmplk (n : Fin 4)
  | l1dmplkcmd
  | l1dmplkstat
  | l2mppa (n : Fin 64)
  | l1pmppa (n : Fin 32)
  | l1dmppa (n : Fin 32)
  | l2pdwake (n : Fin 2)
  | l2pdsleep (n : Fin 2)
  | l2pdstat (n : Fin 2)
  deriving DecidableEq, Repr

/-- The registers that stand alone, with their addresses (spec/30_encoding.md R154, spec/10_state.md R97). -/
def Reg.scalars : List (Nat × Reg) :=
  (0x01800180, Reg.intxstat) ::
  (0x01800184, Reg.intxclr) ::
  (0x01800188, Reg.intdmask) ::
  (0x01810000, Reg.pdccmd) ::
  (0x01812000, Reg.mmRevid) ::
  (0x01820000, Reg.idma0Stat) ::
  (0x01820100, Reg.idma1Stat) ::
  (0x01820004, Reg.idma0Mask) ::
  (0x01820008, Reg.idma0Source) ::
  (0x0182000C, Reg.idma0Dest) ::
  (0x01820010, Reg.idma0Count) ::
  (0x01820108, Reg.idma1Source) ::
  (0x0182010C, Reg.idma1Dest) ::
  (0x01820110, Reg.idma1Count) ::
  (0x01820200, Reg.cpuarbe) ::
  (0x01820204, Reg.idmaarbe) ::
  (0x01820208, Reg.sdmaarbe) ::
  (0x0182020C, Reg.mdmaarbe) ::
  (0x01841000, Reg.cpuarbu) ::
  (0x01841004, Reg.idmaarbu) ::
  (0x01841008, Reg.sdmaarbu) ::
  (0x0184100C, Reg.ucarbu) ::
  (0x01841040, Reg.cpuarbd) ::
  (0x01841044, Reg.idmaarbd) ::
  (0x01841048, Reg.sdmaarbd) ::
  (0x0184104C, Reg.ucarbd) ::
  (0x01820400, Reg.buserr) ::
  (0x01820404, Reg.buserrclr) ::
  (0x01840000, Reg.l2cfg) ::
  (0x01840020, Reg.l1pcfg) ::
  (0x01840024, Reg.l1pcc) ::
  (0x01840040, Reg.l1dcfg) ::
  (0x01840044, Reg.l1dcc) ::
  (0x01844000, Reg.l2wbar) ::
  (0x01844004, Reg.l2wwc) ::
  (0x01844010, Reg.l2wibar) ::
  (0x01844014, Reg.l2wiwc) ::
  (0x01844018, Reg.l2ibar) ::
  (0x0184401C, Reg.l2iwc) ::
  (0x01844020, Reg.l1pibar) ::
  (0x01844024, Reg.l1piwc) ::
  (0x01844030, Reg.l1dwibar) ::
  (0x01844034, Reg.l1dwiwc) ::
  (0x01844040, Reg.l1dwbar) ::
  (0x01844044, Reg.l1dwwc) ::
  (0x01844048, Reg.l1dibar) ::
  (0x0184404C, Reg.l1diwc) ::
  (0x01845000, Reg.l2wb) ::
  (0x01845004, Reg.l2wbinv) ::
  (0x01845008, Reg.l2inv) ::
  (0x01845028, Reg.l1pinv) ::
  (0x01845040, Reg.l1dwb) ::
  (0x01845044, Reg.l1dwbinv) ::
  (0x01845048, Reg.l1dinv) ::
  (0x0184A000, Reg.l2mpfar) ::
  (0x0184A004, Reg.l2mpfsr) ::
  (0x0184A008, Reg.l2mpfcr) ::
  (0x0184A110, Reg.l2mplkcmd) ::
  (0x0184A114, Reg.l2mplkstat) ::
  (0x0184A400, Reg.l1pmpfar) ::
  (0x0184A404, Reg.l1pmpfsr) ::
  (0x0184A408, Reg.l1pmpfcr) ::
  (0x0184A510, Reg.l1pmplkcmd) ::
  (0x0184A514, Reg.l1pmplkstat) ::
  (0x0184AC00, Reg.l1dmpfar) ::
  (0x0184AC04, Reg.l1dmpfsr) ::
  (0x0184AC08, Reg.l1dmpfcr) ::
  (0x0184AD10, Reg.l1dmplkcmd) ::
  (0x0184AD14, Reg.l1dmplkstat) :: []

/-- The index of the array register at address `a`, for an array of `k` registers from `base` (spec/30_encoding.md R153). -/
def Reg.index (base k a : Nat) : Option (Fin k) :=
  if h : (a - base) / 4 < k then
    if base ≤ a && a % 4 == 0 then some ⟨(a - base) / 4, h⟩ else none
  else none

/-- The register arrays, tried in turn (spec/30_encoding.md R153). `INTMUX` has no register at `n = 0` (spec/10_state.md
R98). -/
def Reg.arrays (b : AegmuxBase) (a : Nat) : List (Option Reg) :=
  [(Reg.index 0x01800000 4 a).map .evtflag,
   (Reg.index 0x01800020 4 a).map .evtset,
   (Reg.index 0x01800040 4 a).map .evtclr,
   (Reg.index 0x01800080 4 a).map .evtmask,
   (Reg.index 0x018000A0 4 a).map .mevtflag,
   (Reg.index 0x018000C0 4 a).map .expmask,
   (Reg.index 0x018000E0 4 a).map .mexpflag,
   ((Reg.index 0x01800100 4 a).filter fun n => n ≠ 0).map .intmux,
   (Reg.index b.addr 2 a).map .aegmux,
   (Reg.index 0x01848000 256 a).map .mar,
   (Reg.index 0x0184A100 4 a).map .l2mplk,
   (Reg.index 0x0184A500 4 a).map .l1pmplk,
   (Reg.index 0x0184AD00 4 a).map .l1dmplk,
   (Reg.index 0x0184A200 64 a).map .l2mppa,
   (Reg.index 0x0184A600 32 a).map .l1pmppa,
   (Reg.index 0x0184AE00 32 a).map .l1dmppa,
   (Reg.index 0x0184C040 2 a).map .l2pdwake,
   (Reg.index 0x0184C050 2 a).map .l2pdsleep,
   (Reg.index 0x0184C060 2 a).map .l2pdstat]

/-- The register at a byte address, if the address holds one, on a device with that `AEGMUX_BASE` (spec/10_state.md R97, R98,
spec/90_conflicts.md C24). -/
def Reg.ofAddrOn (b : AegmuxBase) (a : Nat) : Option Reg :=
  match Reg.scalars.lookup a with
  | some r => some r
  | none => (Reg.arrays b a).findSome? id

/-- The register at a byte address, with the printed `AEGMUX_BASE`. -/
def Reg.ofAddr (a : Nat) : Option Reg := Reg.ofAddrOn .printed a

/-- The byte address of a register, `AEGMUXn` where it is printed (spec/10_state.md R97). -/
def Reg.addr : Reg → Nat
  | .evtflag n => 0x01800000 + 4 * n.val
  | .evtset n => 0x01800020 + 4 * n.val
  | .evtclr n => 0x01800040 + 4 * n.val
  | .evtmask n => 0x01800080 + 4 * n.val
  | .mevtflag n => 0x018000A0 + 4 * n.val
  | .expmask n => 0x018000C0 + 4 * n.val
  | .mexpflag n => 0x018000E0 + 4 * n.val
  | .intmux n => 0x01800100 + 4 * n.val
  | .intxstat => 0x01800180
  | .intxclr => 0x01800184
  | .intdmask => 0x01800188
  | .aegmux n => 0x01810140 + 4 * n.val
  | .pdccmd => 0x01810000
  | .mmRevid => 0x01812000
  | .idma0Stat => 0x01820000
  | .idma1Stat => 0x01820100
  | .idma0Mask => 0x01820004
  | .idma0Source => 0x01820008
  | .idma0Dest => 0x0182000C
  | .idma0Count => 0x01820010
  | .idma1Source => 0x01820108
  | .idma1Dest => 0x0182010C
  | .idma1Count => 0x01820110
  | .cpuarbe => 0x01820200
  | .idmaarbe => 0x01820204
  | .sdmaarbe => 0x01820208
  | .mdmaarbe => 0x0182020C
  | .cpuarbu => 0x01841000
  | .idmaarbu => 0x01841004
  | .sdmaarbu => 0x01841008
  | .ucarbu => 0x0184100C
  | .cpuarbd => 0x01841040
  | .idmaarbd => 0x01841044
  | .sdmaarbd => 0x01841048
  | .ucarbd => 0x0184104C
  | .buserr => 0x01820400
  | .buserrclr => 0x01820404
  | .l2cfg => 0x01840000
  | .l1pcfg => 0x01840020
  | .l1pcc => 0x01840024
  | .l1dcfg => 0x01840040
  | .l1dcc => 0x01840044
  | .l2wbar => 0x01844000
  | .l2wwc => 0x01844004
  | .l2wibar => 0x01844010
  | .l2wiwc => 0x01844014
  | .l2ibar => 0x01844018
  | .l2iwc => 0x0184401C
  | .l1pibar => 0x01844020
  | .l1piwc => 0x01844024
  | .l1dwibar => 0x01844030
  | .l1dwiwc => 0x01844034
  | .l1dwbar => 0x01844040
  | .l1dwwc => 0x01844044
  | .l1dibar => 0x01844048
  | .l1diwc => 0x0184404C
  | .l2wb => 0x01845000
  | .l2wbinv => 0x01845004
  | .l2inv => 0x01845008
  | .l1pinv => 0x01845028
  | .l1dwb => 0x01845040
  | .l1dwbinv => 0x01845044
  | .l1dinv => 0x01845048
  | .mar n => 0x01848000 + 4 * n.val
  | .l2mpfar => 0x0184A000
  | .l2mpfsr => 0x0184A004
  | .l2mpfcr => 0x0184A008
  | .l2mplk n => 0x0184A100 + 4 * n.val
  | .l2mplkcmd => 0x0184A110
  | .l2mplkstat => 0x0184A114
  | .l1pmpfar => 0x0184A400
  | .l1pmpfsr => 0x0184A404
  | .l1pmpfcr => 0x0184A408
  | .l1pmplk n => 0x0184A500 + 4 * n.val
  | .l1pmplkcmd => 0x0184A510
  | .l1pmplkstat => 0x0184A514
  | .l1dmpfar => 0x0184AC00
  | .l1dmpfsr => 0x0184AC04
  | .l1dmpfcr => 0x0184AC08
  | .l1dmplk n => 0x0184AD00 + 4 * n.val
  | .l1dmplkcmd => 0x0184AD10
  | .l1dmplkstat => 0x0184AD14
  | .l2mppa n => 0x0184A200 + 4 * n.val
  | .l1pmppa n => 0x0184A600 + 4 * n.val
  | .l1dmppa n => 0x0184AE00 + 4 * n.val
  | .l2pdwake n => 0x0184C040 + 4 * n.val
  | .l2pdsleep n => 0x0184C050 + 4 * n.val
  | .l2pdstat n => 0x0184C060 + 4 * n.val

/-- The byte address of a register on a device with that `AEGMUX_BASE` (spec/90_conflicts.md C24). -/
def Reg.addrOn (b : AegmuxBase) : Reg → Nat
  | .aegmux n => b.addr + 4 * n.val
  | r => r.addr

/-- `a` lies in the blocks of addresses that hold the megamodule's registers, listed or not (spec/20_memory.md R101,
spec/10_state.md R98). -/
def Reg.inBlocks (a : Nat) : Bool :=
  (0x01800000 ≤ a && a < 0x01820408) || (0x01840000 ≤ a && a < 0x0184C068)

/-- The read command of a register (spec/30_encoding.md R154). -/
def Reg.read : Reg → Instr
  | .evtflag n => .evtflagRead n
  | .evtset n => .evtsetRead n
  | .evtclr n => .evtclrRead n
  | .evtmask n => .evtmaskRead n
  | .mevtflag n => .mevtflagRead n
  | .expmask n => .expmaskRead n
  | .mexpflag n => .mexpflagRead n
  | .intmux n => .intmuxRead n
  | .intxstat => .intxstatRead
  | .intxclr => .intxclrRead
  | .intdmask => .intdmaskRead
  | .aegmux n => .aegmuxRead n
  | .pdccmd => .pdccmdRead
  | .mmRevid => .mmRevidRead
  | .idma0Stat => .idma0StatRead
  | .idma1Stat => .idma1StatRead
  | .idma0Mask => .idma0MaskRead
  | .idma0Source => .idma0SourceRead
  | .idma0Dest => .idma0DestRead
  | .idma0Count => .idma0CountRead
  | .idma1Source => .idma1SourceRead
  | .idma1Dest => .idma1DestRead
  | .idma1Count => .idma1CountRead
  | .cpuarbe => .cpuarbeRead
  | .idmaarbe => .idmaarbeRead
  | .sdmaarbe => .sdmaarbeRead
  | .mdmaarbe => .mdmaarbeRead
  | .cpuarbu => .cpuarbuRead
  | .idmaarbu => .idmaarbuRead
  | .sdmaarbu => .sdmaarbuRead
  | .ucarbu => .ucarbuRead
  | .cpuarbd => .cpuarbdRead
  | .idmaarbd => .idmaarbdRead
  | .sdmaarbd => .sdmaarbdRead
  | .ucarbd => .ucarbdRead
  | .buserr => .buserrRead
  | .buserrclr => .buserrclrRead
  | .l2cfg => .l2cfgRead
  | .l1pcfg => .l1pcfgRead
  | .l1pcc => .l1pccRead
  | .l1dcfg => .l1dcfgRead
  | .l1dcc => .l1dccRead
  | .l2wbar => .l2wbarRead
  | .l2wwc => .l2wwcRead
  | .l2wibar => .l2wibarRead
  | .l2wiwc => .l2wiwcRead
  | .l2ibar => .l2ibarRead
  | .l2iwc => .l2iwcRead
  | .l1pibar => .l1pibarRead
  | .l1piwc => .l1piwcRead
  | .l1dwibar => .l1dwibarRead
  | .l1dwiwc => .l1dwiwcRead
  | .l1dwbar => .l1dwbarRead
  | .l1dwwc => .l1dwwcRead
  | .l1dibar => .l1dibarRead
  | .l1diwc => .l1diwcRead
  | .l2wb => .l2wbRead
  | .l2wbinv => .l2wbinvRead
  | .l2inv => .l2invRead
  | .l1pinv => .l1pinvRead
  | .l1dwb => .l1dwbRead
  | .l1dwbinv => .l1dwbinvRead
  | .l1dinv => .l1dinvRead
  | .mar n => .marRead n
  | .l2mpfar => .l2mpfarRead
  | .l2mpfsr => .l2mpfsrRead
  | .l2mpfcr => .l2mpfcrRead
  | .l2mplk n => .l2mplkRead n
  | .l2mplkcmd => .l2mplkcmdRead
  | .l2mplkstat => .l2mplkstatRead
  | .l1pmpfar => .l1pmpfarRead
  | .l1pmpfsr => .l1pmpfsrRead
  | .l1pmpfcr => .l1pmpfcrRead
  | .l1pmplk n => .l1pmplkRead n
  | .l1pmplkcmd => .l1pmplkcmdRead
  | .l1pmplkstat => .l1pmplkstatRead
  | .l1dmpfar => .l1dmpfarRead
  | .l1dmpfsr => .l1dmpfsrRead
  | .l1dmpfcr => .l1dmpfcrRead
  | .l1dmplk n => .l1dmplkRead n
  | .l1dmplkcmd => .l1dmplkcmdRead
  | .l1dmplkstat => .l1dmplkstatRead
  | .l2mppa n => .l2mppaRead n
  | .l1pmppa n => .l1pmppaRead n
  | .l1dmppa n => .l1dmppaRead n
  | .l2pdwake n => .l2pdwakeRead n
  | .l2pdsleep n => .l2pdsleepRead n
  | .l2pdstat n => .l2pdstatRead n

/-- The write command of a register (spec/30_encoding.md R154). -/
def Reg.write (v : Word) : Reg → Instr
  | .evtflag n => .evtflagWrite n v
  | .evtset n => .evtsetWrite n v
  | .evtclr n => .evtclrWrite n v
  | .evtmask n => .evtmaskWrite n v
  | .mevtflag n => .mevtflagWrite n v
  | .expmask n => .expmaskWrite n v
  | .mexpflag n => .mexpflagWrite n v
  | .intmux n => .intmuxWrite n v
  | .intxstat => .intxstatWrite v
  | .intxclr => .intxclrWrite v
  | .intdmask => .intdmaskWrite v
  | .aegmux n => .aegmuxWrite n v
  | .pdccmd => .pdccmdWrite v
  | .mmRevid => .mmRevidWrite v
  | .idma0Stat => .idma0StatWrite v
  | .idma1Stat => .idma1StatWrite v
  | .idma0Mask => .idma0MaskWrite v
  | .idma0Source => .idma0SourceWrite v
  | .idma0Dest => .idma0DestWrite v
  | .idma0Count => .idma0CountWrite v
  | .idma1Source => .idma1SourceWrite v
  | .idma1Dest => .idma1DestWrite v
  | .idma1Count => .idma1CountWrite v
  | .cpuarbe => .cpuarbeWrite v
  | .idmaarbe => .idmaarbeWrite v
  | .sdmaarbe => .sdmaarbeWrite v
  | .mdmaarbe => .mdmaarbeWrite v
  | .cpuarbu => .cpuarbuWrite v
  | .idmaarbu => .idmaarbuWrite v
  | .sdmaarbu => .sdmaarbuWrite v
  | .ucarbu => .ucarbuWrite v
  | .cpuarbd => .cpuarbdWrite v
  | .idmaarbd => .idmaarbdWrite v
  | .sdmaarbd => .sdmaarbdWrite v
  | .ucarbd => .ucarbdWrite v
  | .buserr => .buserrWrite v
  | .buserrclr => .buserrclrWrite v
  | .l2cfg => .l2cfgWrite v
  | .l1pcfg => .l1pcfgWrite v
  | .l1pcc => .l1pccWrite v
  | .l1dcfg => .l1dcfgWrite v
  | .l1dcc => .l1dccWrite v
  | .l2wbar => .l2wbarWrite v
  | .l2wwc => .l2wwcWrite v
  | .l2wibar => .l2wibarWrite v
  | .l2wiwc => .l2wiwcWrite v
  | .l2ibar => .l2ibarWrite v
  | .l2iwc => .l2iwcWrite v
  | .l1pibar => .l1pibarWrite v
  | .l1piwc => .l1piwcWrite v
  | .l1dwibar => .l1dwibarWrite v
  | .l1dwiwc => .l1dwiwcWrite v
  | .l1dwbar => .l1dwbarWrite v
  | .l1dwwc => .l1dwwcWrite v
  | .l1dibar => .l1dibarWrite v
  | .l1diwc => .l1diwcWrite v
  | .l2wb => .l2wbWrite v
  | .l2wbinv => .l2wbinvWrite v
  | .l2inv => .l2invWrite v
  | .l1pinv => .l1pinvWrite v
  | .l1dwb => .l1dwbWrite v
  | .l1dwbinv => .l1dwbinvWrite v
  | .l1dinv => .l1dinvWrite v
  | .mar n => .marWrite n v
  | .l2mpfar => .l2mpfarWrite v
  | .l2mpfsr => .l2mpfsrWrite v
  | .l2mpfcr => .l2mpfcrWrite v
  | .l2mplk n => .l2mplkWrite n v
  | .l2mplkcmd => .l2mplkcmdWrite v
  | .l2mplkstat => .l2mplkstatWrite v
  | .l1pmpfar => .l1pmpfarWrite v
  | .l1pmpfsr => .l1pmpfsrWrite v
  | .l1pmpfcr => .l1pmpfcrWrite v
  | .l1pmplk n => .l1pmplkWrite n v
  | .l1pmplkcmd => .l1pmplkcmdWrite v
  | .l1pmplkstat => .l1pmplkstatWrite v
  | .l1dmpfar => .l1dmpfarWrite v
  | .l1dmpfsr => .l1dmpfsrWrite v
  | .l1dmpfcr => .l1dmpfcrWrite v
  | .l1dmplk n => .l1dmplkWrite n v
  | .l1dmplkcmd => .l1dmplkcmdWrite v
  | .l1dmplkstat => .l1dmplkstatWrite v
  | .l2mppa n => .l2mppaWrite n v
  | .l1pmppa n => .l1pmppaWrite n v
  | .l1dmppa n => .l1dmppaWrite n v
  | .l2pdwake n => .l2pdwakeWrite n v
  | .l2pdsleep n => .l2pdsleepWrite n v
  | .l2pdstat n => .l2pdstatWrite n v

/-- Why three words are no register command. -/
inductive DecodeError where
  /-- The words are not exactly an address, a direction and a value. -/
  | length
  /-- The address is not a multiple of 4 (spec/30_encoding.md R152, spec/93_implementation_defined.md U9). -/
  | misaligned
  /-- No register has this address (spec/10_state.md R98, spec/93_implementation_defined.md U18). -/
  | unlistedRegister
  /-- The direction is neither read nor write. -/
  | direction
  /-- A read carries a value. -/
  | readWithValue
  deriving DecidableEq, Repr

/-- Decoding of a command on a device with that `AEGMUX_BASE`: total on any words, and an address that holds no register is
rejected by name (spec/30_encoding.md R152). -/
def decodeOn (b : AegmuxBase) : List Word → Except DecodeError Instr
  | [a, d, v] =>
    if a.toNat % 4 ≠ 0 then .error .misaligned
    else match Reg.ofAddrOn b a.toNat with
      | none => .error .unlistedRegister
      | some r =>
        if d = 0#32 then (if v = 0#32 then .ok r.read else .error .readWithValue)
        else if d = 1#32 then .ok (r.write v)
        else .error .direction
  | _ => .error .length

/-- Decoding with the printed `AEGMUX_BASE`, as spec/opcode_table.json has it. -/
def decode (ws : List Word) : Except DecodeError Instr := decodeOn .printed ws

/-- The words of a read of the register. -/
def readWords (b : AegmuxBase) (r : Reg) : List Word := [BitVec.ofNat 32 (r.addrOn b), 0#32, 0#32]

/-- The words of a write of `v` to the register. -/
def writeWords (b : AegmuxBase) (r : Reg) (v : Word) : List Word := [BitVec.ofNat 32 (r.addrOn b), 1#32, v]

/-- The words of an instruction on a device with that `AEGMUX_BASE` (spec/30_encoding.md R152 to R154, read the other
way). -/
def encodeOn (b : AegmuxBase) : Instr → List Word
  | .evtflagRead n => readWords b (.evtflag n)
  | .evtflagWrite n v => writeWords b (.evtflag n) v
  | .evtsetRead n => readWords b (.evtset n)
  | .evtsetWrite n v => writeWords b (.evtset n) v
  | .evtclrRead n => readWords b (.evtclr n)
  | .evtclrWrite n v => writeWords b (.evtclr n) v
  | .evtmaskRead n => readWords b (.evtmask n)
  | .evtmaskWrite n v => writeWords b (.evtmask n) v
  | .mevtflagRead n => readWords b (.mevtflag n)
  | .mevtflagWrite n v => writeWords b (.mevtflag n) v
  | .expmaskRead n => readWords b (.expmask n)
  | .expmaskWrite n v => writeWords b (.expmask n) v
  | .mexpflagRead n => readWords b (.mexpflag n)
  | .mexpflagWrite n v => writeWords b (.mexpflag n) v
  | .intmuxRead n => readWords b (.intmux n)
  | .intmuxWrite n v => writeWords b (.intmux n) v
  | .intxstatRead => readWords b .intxstat
  | .intxstatWrite v => writeWords b .intxstat v
  | .intxclrRead => readWords b .intxclr
  | .intxclrWrite v => writeWords b .intxclr v
  | .intdmaskRead => readWords b .intdmask
  | .intdmaskWrite v => writeWords b .intdmask v
  | .aegmuxRead n => readWords b (.aegmux n)
  | .aegmuxWrite n v => writeWords b (.aegmux n) v
  | .pdccmdRead => readWords b .pdccmd
  | .pdccmdWrite v => writeWords b .pdccmd v
  | .mmRevidRead => readWords b .mmRevid
  | .mmRevidWrite v => writeWords b .mmRevid v
  | .idma0StatRead => readWords b .idma0Stat
  | .idma0StatWrite v => writeWords b .idma0Stat v
  | .idma1StatRead => readWords b .idma1Stat
  | .idma1StatWrite v => writeWords b .idma1Stat v
  | .idma0MaskRead => readWords b .idma0Mask
  | .idma0MaskWrite v => writeWords b .idma0Mask v
  | .idma0SourceRead => readWords b .idma0Source
  | .idma0SourceWrite v => writeWords b .idma0Source v
  | .idma0DestRead => readWords b .idma0Dest
  | .idma0DestWrite v => writeWords b .idma0Dest v
  | .idma0CountRead => readWords b .idma0Count
  | .idma0CountWrite v => writeWords b .idma0Count v
  | .idma1SourceRead => readWords b .idma1Source
  | .idma1SourceWrite v => writeWords b .idma1Source v
  | .idma1DestRead => readWords b .idma1Dest
  | .idma1DestWrite v => writeWords b .idma1Dest v
  | .idma1CountRead => readWords b .idma1Count
  | .idma1CountWrite v => writeWords b .idma1Count v
  | .cpuarbeRead => readWords b .cpuarbe
  | .cpuarbeWrite v => writeWords b .cpuarbe v
  | .idmaarbeRead => readWords b .idmaarbe
  | .idmaarbeWrite v => writeWords b .idmaarbe v
  | .sdmaarbeRead => readWords b .sdmaarbe
  | .sdmaarbeWrite v => writeWords b .sdmaarbe v
  | .mdmaarbeRead => readWords b .mdmaarbe
  | .mdmaarbeWrite v => writeWords b .mdmaarbe v
  | .cpuarbuRead => readWords b .cpuarbu
  | .cpuarbuWrite v => writeWords b .cpuarbu v
  | .idmaarbuRead => readWords b .idmaarbu
  | .idmaarbuWrite v => writeWords b .idmaarbu v
  | .sdmaarbuRead => readWords b .sdmaarbu
  | .sdmaarbuWrite v => writeWords b .sdmaarbu v
  | .ucarbuRead => readWords b .ucarbu
  | .ucarbuWrite v => writeWords b .ucarbu v
  | .cpuarbdRead => readWords b .cpuarbd
  | .cpuarbdWrite v => writeWords b .cpuarbd v
  | .idmaarbdRead => readWords b .idmaarbd
  | .idmaarbdWrite v => writeWords b .idmaarbd v
  | .sdmaarbdRead => readWords b .sdmaarbd
  | .sdmaarbdWrite v => writeWords b .sdmaarbd v
  | .ucarbdRead => readWords b .ucarbd
  | .ucarbdWrite v => writeWords b .ucarbd v
  | .buserrRead => readWords b .buserr
  | .buserrWrite v => writeWords b .buserr v
  | .buserrclrRead => readWords b .buserrclr
  | .buserrclrWrite v => writeWords b .buserrclr v
  | .l2cfgRead => readWords b .l2cfg
  | .l2cfgWrite v => writeWords b .l2cfg v
  | .l1pcfgRead => readWords b .l1pcfg
  | .l1pcfgWrite v => writeWords b .l1pcfg v
  | .l1pccRead => readWords b .l1pcc
  | .l1pccWrite v => writeWords b .l1pcc v
  | .l1dcfgRead => readWords b .l1dcfg
  | .l1dcfgWrite v => writeWords b .l1dcfg v
  | .l1dccRead => readWords b .l1dcc
  | .l1dccWrite v => writeWords b .l1dcc v
  | .l2wbarRead => readWords b .l2wbar
  | .l2wbarWrite v => writeWords b .l2wbar v
  | .l2wwcRead => readWords b .l2wwc
  | .l2wwcWrite v => writeWords b .l2wwc v
  | .l2wibarRead => readWords b .l2wibar
  | .l2wibarWrite v => writeWords b .l2wibar v
  | .l2wiwcRead => readWords b .l2wiwc
  | .l2wiwcWrite v => writeWords b .l2wiwc v
  | .l2ibarRead => readWords b .l2ibar
  | .l2ibarWrite v => writeWords b .l2ibar v
  | .l2iwcRead => readWords b .l2iwc
  | .l2iwcWrite v => writeWords b .l2iwc v
  | .l1pibarRead => readWords b .l1pibar
  | .l1pibarWrite v => writeWords b .l1pibar v
  | .l1piwcRead => readWords b .l1piwc
  | .l1piwcWrite v => writeWords b .l1piwc v
  | .l1dwibarRead => readWords b .l1dwibar
  | .l1dwibarWrite v => writeWords b .l1dwibar v
  | .l1dwiwcRead => readWords b .l1dwiwc
  | .l1dwiwcWrite v => writeWords b .l1dwiwc v
  | .l1dwbarRead => readWords b .l1dwbar
  | .l1dwbarWrite v => writeWords b .l1dwbar v
  | .l1dwwcRead => readWords b .l1dwwc
  | .l1dwwcWrite v => writeWords b .l1dwwc v
  | .l1dibarRead => readWords b .l1dibar
  | .l1dibarWrite v => writeWords b .l1dibar v
  | .l1diwcRead => readWords b .l1diwc
  | .l1diwcWrite v => writeWords b .l1diwc v
  | .l2wbRead => readWords b .l2wb
  | .l2wbWrite v => writeWords b .l2wb v
  | .l2wbinvRead => readWords b .l2wbinv
  | .l2wbinvWrite v => writeWords b .l2wbinv v
  | .l2invRead => readWords b .l2inv
  | .l2invWrite v => writeWords b .l2inv v
  | .l1pinvRead => readWords b .l1pinv
  | .l1pinvWrite v => writeWords b .l1pinv v
  | .l1dwbRead => readWords b .l1dwb
  | .l1dwbWrite v => writeWords b .l1dwb v
  | .l1dwbinvRead => readWords b .l1dwbinv
  | .l1dwbinvWrite v => writeWords b .l1dwbinv v
  | .l1dinvRead => readWords b .l1dinv
  | .l1dinvWrite v => writeWords b .l1dinv v
  | .marRead n => readWords b (.mar n)
  | .marWrite n v => writeWords b (.mar n) v
  | .l2mpfarRead => readWords b .l2mpfar
  | .l2mpfarWrite v => writeWords b .l2mpfar v
  | .l2mpfsrRead => readWords b .l2mpfsr
  | .l2mpfsrWrite v => writeWords b .l2mpfsr v
  | .l2mpfcrRead => readWords b .l2mpfcr
  | .l2mpfcrWrite v => writeWords b .l2mpfcr v
  | .l2mplkRead n => readWords b (.l2mplk n)
  | .l2mplkWrite n v => writeWords b (.l2mplk n) v
  | .l2mplkcmdRead => readWords b .l2mplkcmd
  | .l2mplkcmdWrite v => writeWords b .l2mplkcmd v
  | .l2mplkstatRead => readWords b .l2mplkstat
  | .l2mplkstatWrite v => writeWords b .l2mplkstat v
  | .l1pmpfarRead => readWords b .l1pmpfar
  | .l1pmpfarWrite v => writeWords b .l1pmpfar v
  | .l1pmpfsrRead => readWords b .l1pmpfsr
  | .l1pmpfsrWrite v => writeWords b .l1pmpfsr v
  | .l1pmpfcrRead => readWords b .l1pmpfcr
  | .l1pmpfcrWrite v => writeWords b .l1pmpfcr v
  | .l1pmplkRead n => readWords b (.l1pmplk n)
  | .l1pmplkWrite n v => writeWords b (.l1pmplk n) v
  | .l1pmplkcmdRead => readWords b .l1pmplkcmd
  | .l1pmplkcmdWrite v => writeWords b .l1pmplkcmd v
  | .l1pmplkstatRead => readWords b .l1pmplkstat
  | .l1pmplkstatWrite v => writeWords b .l1pmplkstat v
  | .l1dmpfarRead => readWords b .l1dmpfar
  | .l1dmpfarWrite v => writeWords b .l1dmpfar v
  | .l1dmpfsrRead => readWords b .l1dmpfsr
  | .l1dmpfsrWrite v => writeWords b .l1dmpfsr v
  | .l1dmpfcrRead => readWords b .l1dmpfcr
  | .l1dmpfcrWrite v => writeWords b .l1dmpfcr v
  | .l1dmplkRead n => readWords b (.l1dmplk n)
  | .l1dmplkWrite n v => writeWords b (.l1dmplk n) v
  | .l1dmplkcmdRead => readWords b .l1dmplkcmd
  | .l1dmplkcmdWrite v => writeWords b .l1dmplkcmd v
  | .l1dmplkstatRead => readWords b .l1dmplkstat
  | .l1dmplkstatWrite v => writeWords b .l1dmplkstat v
  | .l2mppaRead n => readWords b (.l2mppa n)
  | .l2mppaWrite n v => writeWords b (.l2mppa n) v
  | .l1pmppaRead n => readWords b (.l1pmppa n)
  | .l1pmppaWrite n v => writeWords b (.l1pmppa n) v
  | .l1dmppaRead n => readWords b (.l1dmppa n)
  | .l1dmppaWrite n v => writeWords b (.l1dmppa n) v
  | .l2pdwakeRead n => readWords b (.l2pdwake n)
  | .l2pdwakeWrite n v => writeWords b (.l2pdwake n) v
  | .l2pdsleepRead n => readWords b (.l2pdsleep n)
  | .l2pdsleepWrite n v => writeWords b (.l2pdsleep n) v
  | .l2pdstatRead n => readWords b (.l2pdstat n)
  | .l2pdstatWrite n v => writeWords b (.l2pdstat n) v

/-- The words of an instruction, with the printed `AEGMUX_BASE`. -/
def encode (i : Instr) : List Word := encodeOn .printed i

/-- The three words of an instruction whose bits are `w`, bit 0 the least significant bit of the first word; bits from
`nbits` on are 0. -/
def tableWords (nbits w : Nat) : List Word :=
  let b := w % 2 ^ nbits
  [BitVec.ofNat 32 b, BitVec.ofNat 32 (b / 2 ^ 32), BitVec.ofNat 32 (b / 2 ^ 64)]

/-- The instruction the decoder reads from a word of spec/opcode_table.json. -/
def decodeTableWord (nbits w : Nat) : Option Instr :=
  match decode (tableWords nbits w) with
  | .ok i => some i
  | .error _ => none

end Sys2Proof
end

