-- ==== Sys2Proof/Machine/Memory.lean ====
section
/-!
DEFINITION. Memory: its bytes as plain data in canonical form, and the named operations over it (spec/20_memory.md R100 to
R103).
-/
namespace Sys2Proof.Machine

/-- A range of memory, but for its ROM parts, whose unlisted bytes are unspecified (spec/93_implementation_defined.md U4),
with the stamp of its free contents. -/
structure Lost where
  span  : Span
  rom   : List Span
  stamp : Nat
  deriving DecidableEq, Repr

/-- Memory: the bytes of every RAM, ROM, external memory and external configuration register, in one address space
(spec/20_memory.md R100, R101). `cells` is in canonical form: addresses strictly rising, and no entry in which the byte is
what the unlisted address reads as. -/
structure Memory where
  cells : List Host.Cell
  lost  : List Lost
  deriving DecidableEq, Repr

/-- The address is in the range and in none of its ROM parts. -/
def Lost.has (l : Lost) (a : Nat) : Bool := l.span.has a && !Span.anyHas l.rom a

/-- What an unlisted byte reads as: 0 (DESIGN CHOICE, unsafe: notes/assumptions/4.md), but in a range whose contents are
unspecified, the range's free contents (spec/93_implementation_defined.md U4). -/
def Memory.unlisted (m : Memory) (a : Nat) : Byte :=
  match m.lost.find? fun l => l.has a with
  | some l => Config.freeByte l.stamp a
  | none => 0#8

/-- One byte of memory. -/
def Memory.read (m : Memory) (a : Nat) : Byte := (m.cells.lookup a).getD (m.unlisted a)

/-- The cells with `b` at address `a`, in order. -/
def insertCell : List Host.Cell → Nat → Byte → List Host.Cell
  | [], a, b => [(a, b)]
  | (c, x) :: t, a, b =>
    if a < c then (a, b) :: (c, x) :: t else if a = c then (a, b) :: t else (c, x) :: insertCell t a b

/-- The cells without address `a`. -/
def removeCell (l : List Host.Cell) (a : Nat) : List Host.Cell := l.filter fun p => p.1 ≠ a

/-- One byte written, in canonical form. -/
def Memory.write (m : Memory) (a : Nat) (b : Byte) : Memory :=
  if b = m.unlisted a then { m with cells := removeCell m.cells a } else { m with cells := insertCell m.cells a b }

/-- The bytes at `a .. a + n - 1`. -/
def Memory.readBytes (m : Memory) (a : Nat) : Nat → List Byte
  | 0 => []
  | n + 1 => m.read a :: m.readBytes (a + 1) n

/-- Bytes written at rising addresses. -/
def Memory.writeBytes (m : Memory) (a : Nat) : List Byte → Memory
  | [] => m
  | b :: t => (m.write a b).writeBytes (a + 1) t

/-- Bytes written where the mask has one. -/
def Memory.writeMasked (m : Memory) (a : Nat) : List (Option Byte) → Memory
  | [] => m
  | none :: t => m.writeMasked (a + 1) t
  | some b :: t => (m.write a b).writeMasked (a + 1) t

/-- The contents of a range become unspecified (spec/93_implementation_defined.md U4). -/
def Memory.forget (m : Memory) (l : Lost) : Memory :=
  { cells := m.cells.filter fun p => !l.has p.1, lost := l :: m.lost }

/-- The addresses of the cells strictly rise. -/
def rising : List Host.Cell → Bool
  | [] => true
  | [_] => true
  | (a, _) :: (b, y) :: t => decide (a < b) && rising ((b, y) :: t)

/-- The canonical form of memory: addresses strictly rising, and no entry equal to what the unlisted address reads as. -/
def Memory.wf (m : Memory) : Bool := rising m.cells && m.cells.all fun p => p.2 ≠ m.unlisted p.1

/-- Memory with the bytes a platform chooses for a run (spec/70_reset_and_hazards.md R566). -/
def Memory.initial (l : List (Nat × Byte)) : Memory :=
  l.foldl (fun m e => m.write e.1 e.2) { cells := [], lost := [] }

end Sys2Proof.Machine
end

