-- ==== Sys2Proof/Machine/State.lean ====
section
/-!
DEFINITION. The state of the megamodule (spec/10_state.md), its stops, and its reset (spec/70_reset_and_hazards.md R560 to
R564). Everything is plain data. INVENTORY.md lists every field with its rule and its reset value.
-/
namespace Sys2Proof.Machine

/-- The privilege of an access (spec/46_mpa.md R461, spec/60_exceptions.md R541). -/
inductive Priv
  | supervisor
  | user
  deriving DecidableEq, Repr

/-- The kind of an access (spec/46_mpa.md R465). -/
inductive Kind
  | read
  | write
  | execute
  deriving DecidableEq, Repr

/-- The three memory protection blocks `X` (spec/00_scope.md R8). -/
inductive Block
  | l1p
  | l1d
  | l2
  deriving DecidableEq, Repr

/-- Where control passed when the CPU last accepted an interrupt or an exception (spec/60_exceptions.md R535, R539). The
vectors themselves are not in the source (spec/91_not_in_source.md N1). -/
inductive Handler
  | none
  /-- The handler of CPUINTk (R535). -/
  | cpuint (k : Nat)
  /-- The NMI vector, shared by NMI, EXCEP, internal exceptions and `SWE` (R539). -/
  | nmiVector
  /-- The address held in `REP`, for `SWENR` (R539). -/
  | rep (address : Word)
  deriving DecidableEq, Repr

/-- The four exception sources the exception flag register tells apart (spec/60_exceptions.md R538). -/
structure Efr where
  nmi      : Bool
  excep    : Bool
  internal : Bool
  software : Bool
  deriving DecidableEq, Repr

/-- The part of a CPU access that is still to be made (spec/20_memory.md R108, spec/92_eei_decisions.md D27;
notes/assumptions/11.md): a store of more than one aligned unit is a sequence of steps, and a load that crosses a quad-word
is two. -/
inductive AccessRest
  /-- The bytes still to be stored. -/
  | store (addr : Nat) (bytes : List Byte)
  /-- The bytes still to be loaded, `left` of them at `addr`, and those loaded. -/
  | load (addr left : Nat) (got : List Byte)
  deriving DecidableEq, Repr

/-- What a unit read ahead belongs to: a CPU load or a program fetch that the megamodule's own memories and caches serve, or
a read of external memory for a load, for a fetch, or for the oldest entry of the write buffer. -/
inductive AheadKind
  | load
  | fetch
  | loadFill
  | fetchFill
  | drainFill
  deriving DecidableEq, Repr

/-- An access that the CPU has begun and L2 is making room for (spec/42_l2.md R286): a load, the second part of a load, a
fetch, or a prefetch. -/
inductive Access
  | load (addr width : Nat)
  | loadRest
  | fetch (addr : Nat)
  | prefetch (addr : Nat)
  deriving DecidableEq, Repr

/-- An aligned word, half-word or byte that the access under way has already read: a read of more than one such unit is a
sequence of steps (spec/20_memory.md R108, spec/92_eei_decisions.md D27; notes/assumptions/11.md). -/
structure Ahead where
  kind  : AheadKind
  addr  : Nat
  bytes : List Byte
  deriving DecidableEq, Repr

/-- The CPU side the megamodule's rules read (spec/10_state.md R21, spec/60_exceptions.md R535 to R539). `prevInt` and
`prevExcep` are the previous values of the inputs (R535, R537); `lastFetch` is the fetch packet last executed
(spec/70_reset_and_hazards.md R575); `rest` and `ahead` are what is still to be made and what has been read of an access of
more than one aligned unit, and `issued` is the access that L2 is making room for (spec/20_memory.md R108;
notes/assumptions/11.md). -/
structure Cpu where
  priv      : Priv
  running   : Bool
  idle      : Bool
  ifr       : BitVec 16
  ier       : BitVec 16
  gie       : Bool
  gee       : Bool
  efr       : Efr
  rep       : Word
  handler   : Handler
  prevInt   : BitVec 16
  prevExcep : Bool
  lastFetch : Option Nat
  rest      : Option AccessRest
  ahead     : List Ahead
  issued    : Option Access
  deriving DecidableEq, Repr

/-- The interrupt controller (spec/10_state.md R61 to R72, R94). `intMux` holds `INTMUX1` to `INTMUX3` in this order;
`pulses` the events asserted in the step under way (spec/45_intc.md R412). -/
structure Intc where
  evtFlag  : Vector Word 4
  evtMask  : Vector Word 4
  expMask  : Vector Word 4
  intMux   : Vector Word 3
  intXStat : Word
  intDMask : Word
  aegMux   : Vector Word 2
  pulses   : List Nat
  deriving DecidableEq, Repr

/-- The power-down state (spec/10_state.md R83, R95). `sploop` says that the CPU executes from the `SPLOOP` buffer
(spec/47_pdc_misc.md R501 (a)). -/
structure Pdc where
  megpd     : Bool
  sploop    : Bool
  mmAsleep  : Bool
  l1pAsleep : Bool
  l1dAsleep : Bool
  l2Asleep  : Bool
  deriving DecidableEq, Repr

/-- The parameter set of an IDMA transfer with its progress (spec/10_state.md R91, spec/43_idma.md R357, R364). `pos`
counts the words passed. -/
structure Xfer where
  mask  : Word
  src   : Word
  dst   : Word
  count : Nat
  fill  : Bool
  int   : Bool
  pri   : BitVec 3
  priv  : Priv
  id    : Nat
  pos   : Nat
  deriving DecidableEq, Repr

/-- How far the parameter registers of a channel have been rewritten, in order, since its last submission
(spec/43_idma.md R357, R364): the model's own field, and the model's choice of what "in that order" means where a register is
written out of its place or more than once (DESIGN CHOICE, notes/assumptions/16.md). -/
inductive Stage
  | none
  | mask
  | source
  | dest
  deriving DecidableEq, Repr

/-- One IDMA channel (spec/10_state.md R47 to R55, R91). Channel 1 has no mask register. -/
structure Chan where
  mask    : Word
  source  : Word
  dest    : Word
  count   : Word
  active  : Option Xfer
  pending : Option Xfer
  stage   : Stage
  deriving DecidableEq, Repr

/-- The bandwidth management registers and the hidden contention counters (spec/10_state.md R56 to R60, R92). `cnt` holds
`cnt[X][q]` at `4 X + q`, X = L1D, L2, EMC, L1P and q = CPU, IDMA, SDMA, UC (L1P's counters: notes/assumptions/28.md). -/
structure Bwm where
  cpuarbd  : Word
  cpuarbu  : Word
  cpuarbe  : Word
  idmaarbd : Word
  idmaarbu : Word
  idmaarbe : Word
  sdmaarbd : Word
  sdmaarbu : Word
  sdmaarbe : Word
  ucarbd   : Word
  ucarbu   : Word
  mdmaarbe : Word
  cnt      : Vector Nat 16
  deriving DecidableEq, Repr

/-- The four kinds of transaction the EMC hands to the platform (spec/20_memory.md R111, R112, spec/47_pdc_misc.md R507). -/
inductive BusOp
  | mdmaRead
  | mdmaWrite
  | cfgRead
  | cfgWrite
  deriving DecidableEq, Repr

/-- A transaction as the platform sees it: its kind, address, bytes, priority `MDMAARBE.PRI` (spec/44_bwm.md R397) and the
requestor's privilege and ID (spec/20_memory.md R111). -/
structure BusRequest where
  op   : BusOp
  addr : Nat
  size : Nat
  pri  : BitVec 3
  priv : Priv
  id   : Nat
  deriving DecidableEq, Repr

/-- The status the platform will answer to a transaction (spec/47_pdc_misc.md R507): the transaction ID and `STAT` of an
error. -/
inductive BusReply
  | ok
  | error (xid : BitVec 4) (stat : BitVec 3)
  deriving DecidableEq, Repr

/-- What is left of a slave DMA transaction: the bytes still to read with those read, or the bytes still to write. -/
inductive BurstRest
  | read (left : Nat) (got : List Byte)
  | write (bytes : List Byte)
  deriving DecidableEq, Repr

/-- A slave DMA transaction under way at its next address, with the requestor's ID and privilege: one of more than one
word is a sequence of steps (spec/20_memory.md R108, R112; notes/assumptions/24.md). -/
structure Burst where
  id   : Nat
  priv : Priv
  addr : Nat
  rest : BurstRest
  deriving DecidableEq, Repr

/-- The EMC: `BUSERR` (spec/10_state.md R85), the statuses the platform will answer, the transactions handed out in the step
under way (notes/assumptions/22.md), the slave DMA transactions under way, and the units of external memory that a fill or a
wide read under way has read (spec/20_memory.md R108, R112). -/
structure Emc where
  busErr   : Word
  replies  : List BusReply
  requests : List BusRequest
  bursts   : List Burst
  fills    : List Ahead
  deriving DecidableEq, Repr

/-- A valid cache line (spec/10_state.md R87, R88, R90): its frame, tag, dirty bit, bytes and the permission value that came
with the fill. An invalid frame has no entry. -/
structure Line where
  set   : Nat
  way   : Nat
  tag   : Nat
  dirty : Bool
  data  : List Byte
  perm  : BitVec 16
  deriving DecidableEq, Repr

/-- The registers that start a program-initiated coherence operation (spec/10_state.md R25 to R42). -/
inductive CohReg
  | l1pinv
  | l1piwc
  | l1dinv
  | l1dwb
  | l1dwbinv
  | l1dwiwc
  | l1dwwc
  | l1diwc
  | l2inv
  | l2wb
  | l2wbinv
  | l2wiwc
  | l2wwc
  | l2iwc
  deriving DecidableEq, Repr

/-- A line frame of one of the caches. -/
structure Frame where
  cache : Block
  set   : Nat
  way   : Nat
  deriving DecidableEq, Repr

/-- A program-initiated coherence operation in progress (spec/10_state.md R96). `todo` lists the line frames not yet
treated, and `l2Listed` says that those of L2 have joined it or need not: they do when no L1D frame is left (spec/42_l2.md
R302, R310). A step that finds the list empty then completes the operation (spec/92_eei_decisions.md D4). `loose` lists the
frames the operation may pass over, because an access reached them meanwhile (spec/41_l1d.md R245,
notes/assumptions/38.md). -/
structure CohOp where
  reg   : CohReg
  base  : Nat
  words : Nat
  priv  : Priv
  todo  : List Frame
  loose : List Frame
  l2Listed : Bool
  deriving DecidableEq, Repr

/-- A block base address register: the value last written, and whether it was written since it was last used
(spec/42_l2.md R307, notes/assumptions/17.md). -/
structure Bar where
  value : Word
  fresh : Bool
  deriving DecidableEq, Repr

/-- The level 1 program memory controller (spec/10_state.md R23 to R27, R74, R87). -/
structure L1p where
  mode  : BitVec 3
  oper  : Bool
  poper : Bool
  ibar  : Bar
  lines : List Line
  op    : Option CohOp
  mppa  : Vector Word 32
  deriving DecidableEq, Repr

/-- An entry of the L1D write buffer (spec/10_state.md R89, spec/41_l1d.md R258, R259): one quad-word with byte enables, the
address of the first write it holds, and the privilege of the writing access. -/
structure WbEntry where
  quad  : Nat
  first : Nat
  bytes : List (Option Byte)
  priv  : Priv
  deriving DecidableEq, Repr

/-- A dirty line on its way out of a cache, word by word: `bytes` holds the bytes that have not yet arrived
(spec/10_state.md R89, spec/41_l1d.md R228, spec/20_memory.md R108). -/
structure Victim where
  addr  : Nat
  bytes : List (Option Byte)
  deriving DecidableEq, Repr

/-- The level 1 data memory controller (spec/10_state.md R28 to R35, R75, R88, R89). `lru` names the way to replace next in
the sets that are not at way 0. -/
structure L1d where
  mode   : BitVec 3
  oper   : Bool
  poper  : Bool
  wibar  : Bar
  wbar   : Bar
  ibar   : Bar
  lines  : List Line
  lru    : List (Nat × Nat)
  wbuf   : List WbEntry
  victim : Option Victim
  op     : Option CohOp
  mppa   : Vector Word 32
  deriving DecidableEq, Repr

/-- The level 2 memory controller (spec/10_state.md R36 to R46, R76, R90, R95). `lru` holds the ways of a set, least recently
used first, for the sets not in the order 0, 1, 2, 3; `sleep` holds `sleep[port][page]` at `2 port + page`; `out` is a dirty
line that an allocation evicts, on its way to external memory (R286, R321; notes/assumptions/11.md). -/
structure L2 where
  mode  : BitVec 3
  cc    : Bool
  wbar  : Bar
  wibar : Bar
  ibar  : Bar
  lines : List Line
  lru   : List (Nat × List Nat)
  op    : Option CohOp
  mar   : Vector Bool 256
  sleep : Vector Bool 4
  mppa  : Vector Word 64
  out   : Option Victim
  deriving DecidableEq, Repr

/-- The lock of one memory protection block (spec/10_state.md R93, spec/46_mpa.md R480). -/
structure Lock where
  lk    : Bool
  armed : Bool
  key   : Vector Word 4
  tmp   : Vector Word 4
  seen  : Vector Bool 4
  deriving DecidableEq, Repr

/-- The fault registers and the lock of one memory protection block (spec/10_state.md R77 to R82, R93). `farKnown` is false
while `XMPFAR` holds the indeterminate value it has after reset (spec/93_implementation_defined.md U19). -/
structure Mp where
  far      : Word
  farKnown : Bool
  fsr      : Word
  lock     : Lock
  deriving DecidableEq, Repr

/-- What the last access answered to its requestor (spec/30_encoding.md R152). -/
inductive Reply
  | none
  /-- The 32-bit result of a register read. -/
  | word (v : Word)
  /-- The bytes of a load or of a read by a master. -/
  | data (bytes : List Byte)
  /-- The fetch packet (spec/40_l1p.md R176). -/
  | packet (bytes : List Byte)
  /-- The fetch at this address was refused (spec/60_exceptions.md R530). -/
  | fetchRefused (addr : Nat)
  deriving DecidableEq, Repr

/-- The managed resources of spec/44_bwm.md R390: L1D, L2, the configuration bus at the EMC, and L1P. -/
inductive Resource
  | l1d
  | l2
  | emc
  | l1p
  deriving DecidableEq, Repr

/-- A request at an arbitrated resource, with the priority its table row gives it (spec/44_bwm.md R393). Of the nine
levels of R391 a slave DMA command may carry any, 0 to 8: which requestors support level 8 is not stated
(spec/91_not_in_source.md N44; DESIGN CHOICE, notes/assumptions/28.md). -/
inductive Request
  | cpu
  | idma0
  | idma1
  /-- The priority comes with the command. -/
  | sdma (pri : Fin 9)
  | ucGlobal
  | ucBlock
  deriving DecidableEq, Repr

/-- One atomic step of one agent (spec/20_memory.md R131), or an input of the platform. The scheduler's order and the
inputs stand in the state's `agenda` (notes/assumptions/1.md). -/
inductive Action
  /-- CPU: a register command, as its words (spec/30_encoding.md R152). -/
  | command (words : List Word)
  /-- CPU: a load of `width` bytes (spec/20_memory.md R114). -/
  | load (addr width : Nat)
  /-- CPU: a store of `width` bytes of `value`. -/
  | store (addr width : Nat) (value : BitVec 64)
  /-- CPU: the next part of the store or load under way (spec/20_memory.md R108). -/
  | accessMore
  /-- CPU, or a controller that fills a line: the access under way reads an aligned unit (spec/20_memory.md R108). -/
  | readAhead (k : AheadKind) (addr width : Nat)
  /-- L2: begins to evict the dirty line in the way that the CPU's access, or else the oldest entry of the write buffer, is
  to fill (spec/42_l2.md R286). -/
  | evict (x : Option Access)
  /-- L2: one word of the evicted line goes out to external memory (spec/20_memory.md R108). -/
  | outWord (i : Nat)
  /-- CPU: a program fetch (spec/20_memory.md R114). -/
  | fetch (addr : Nat)
  /-- L1P: a prefetch that the CPU does not use (spec/70_reset_and_hazards.md R575). -/
  | prefetch (addr : Nat)
  /-- CPU: changes of the CPU-side inputs (spec/60_exceptions.md R536, R537, R539, R543). -/
  | setPriv (p : Priv)
  | setIer (v : BitVec 16)
  | setGie (b : Bool)
  | setGee (b : Bool)
  | setRep (v : Word)
  /-- CPU: `CpuTakesInterrupt(k)` (spec/60_exceptions.md R535). -/
  | takeInterrupt (k : Nat)
  /-- CPU: takes an exception whose flag is set (spec/60_exceptions.md R537 to R539). -/
  | takeException
  /-- CPU: `SWE`, or `SWENR` (spec/60_exceptions.md R538, R539). -/
  | softwareException (swenr : Bool)
  /-- CPU: executes `IDLE` (spec/47_pdc_misc.md R503). -/
  | idle
  /-- CPU: enters or leaves the `SPLOOP` buffer (spec/47_pdc_misc.md R501). -/
  | sploop (b : Bool)
  /-- L1D: the oldest write buffer entry goes to L2 (spec/41_l1d.md R258). -/
  | drainWriteBuffer
  /-- L1D: the victim, or what is left of it, goes to L2 (spec/41_l1d.md R228). -/
  | drainVictim
  /-- L1D: one word of the victim goes to L2 (spec/20_memory.md R108). -/
  | victimWord (i : Nat)
  /-- L1D: writes a dirty line back on its own (spec/92_eei_decisions.md D9). -/
  | writebackLine (set way : Nat)
  /-- A coherence engine treats entry `i` of its list, or past the list's end lists the L2 frames or completes
  (spec/92_eei_decisions.md D4, spec/42_l2.md R302). -/
  | coherence (x : Block) (i : Nat)
  /-- A coherence engine passes over entry `i` of its list, if an access reached its line meanwhile (spec/41_l1d.md R245,
  spec/70_reset_and_hazards.md R572). -/
  | coherenceSkip (x : Block) (i : Nat)
  /-- A coherence engine treats a line that was allocated meanwhile (spec/70_reset_and_hazards.md R572). -/
  | coherenceExtra (x : Block) (f : Frame)
  /-- IDMA: one word of the active transfer of a channel, or its completion (spec/43_idma.md R358, R365). -/
  | idma (c : Fin 2)
  /-- BWM: one arbitration cycle (spec/44_bwm.md R394). -/
  | arbitrate (x : Resource) (pending : List Request)
  /-- Platform: a slave DMA read or write (spec/20_memory.md R112). -/
  | sdmaRead (id : Nat) (p : Priv) (addr size : Nat)
  | sdmaWrite (id : Nat) (p : Priv) (addr : Nat) (bytes : List Byte)
  /-- Slave DMA: the next word of transaction `i` under way (spec/20_memory.md R108). -/
  | sdmaMore (i : Nat)
  /-- Platform: a system event (spec/45_intc.md R430). -/
  | event (e : Nat)
  /-- Platform: NMI (spec/60_exceptions.md R534, R538). -/
  | nmi
  /-- Platform: another master changes a byte outside the megamodule (spec/20_memory.md R112). -/
  | poke (addr : Nat) (b : Byte)
  /-- Platform: the status of a coming transaction (spec/47_pdc_misc.md R507). -/
  | busReply (r : BusReply)
  /-- Platform: global and local reset (spec/70_reset_and_hazards.md R560, R561). -/
  | globalReset
  | localReset
  deriving DecidableEq, Repr

/-- The state of the machine: `plat` holds the platform parameters (spec/00_scope.md R5), the other fields what
spec/10_state.md lists, and `agenda`, `reply` and `free` are the model's own (notes/assumptions/1.md, 6.md). -/
structure State where
  plat   : Platform
  cpu    : Cpu
  intc   : Intc
  pdc    : Pdc
  idma0  : Chan
  idma1  : Chan
  bwm    : Bwm
  emc    : Emc
  l1p    : L1p
  l1d    : L1d
  l2     : L2
  mpL1P  : Mp
  mpL1D  : Mp
  mpL2   : Mp
  mem    : Memory
  agenda : List Action
  reply  : Reply
  free   : Nat
  deriving DecidableEq, Repr

/-- What stops the machine where the spec gives an access no effect. -/
inductive Fault where
  /-- Raised by an access to memory that is given up to a cache (spec/93_implementation_defined.md U3, `refuse`). Safe: the
  machine stops where the hardware goes on. -/
  | cacheArea (addr : Nat)
  /-- Raised where a range passes address FFFF FFFFh (spec/93_implementation_defined.md U20, `refuse`). Safe: as above. -/
  | pastTopOfMemory (addr : Nat)
  deriving DecidableEq, Repr

/-- What the model rejects as outside the spec's domain (treatment `refuse` of spec/93_implementation_defined.md). -/
inductive Refusal where
  /-- The instruction has no meaning yet. Safe. -/
  | notModelled (mnemonic : String)
  /-- Raised by a command whose words decode to nothing (spec/10_state.md R98, U18, U9). Safe. -/
  | undecodable (e : DecodeError)
  /-- Raised by `INTMUX0`, which is no register (spec/10_state.md R98). Safe. -/
  | noSuchRegister (addr : Nat)
  /-- Raised by a register access that is not an aligned 32-bit access (spec/93_implementation_defined.md U9). Safe. -/
  | accessWidth (addr width : Nat)
  /-- Raised by a load or store of a width no CPU access has (spec/20_memory.md R105). Safe. -/
  | noSuchWidth (width : Nat)
  /-- Raised by an access among the registers that hits none (spec/93_implementation_defined.md U18). Safe. -/
  | unlistedAddress (addr : Nat)
  /-- Raised by a fetch from a region the spec describes no fetch for (spec/91_not_in_source.md N8). Safe. -/
  | fetchTarget (addr : Nat)
  /-- Raised by a third outstanding transfer on a channel (spec/93_implementation_defined.md U11). Safe. -/
  | idmaQueueFull (c : Fin 2)
  /-- Raised by a transfer whose addresses are not what its channel serves (spec/93_implementation_defined.md U10, U15). Safe. -/
  | idmaAddress (c : Fin 2) (addr : Nat)
  /-- Raised by a channel 1 byte count that is not a multiple of 4 (spec/93_implementation_defined.md U13). Safe. -/
  | idmaCount (count : Nat)
  /-- Raised by a slave DMA access that targets none of the three memories (spec/20_memory.md R112). Safe. -/
  | sdmaTarget (addr : Nat)
  /-- Raised by a slave DMA access with an ID that does not fit `ID_WIDTH` (spec/00_scope.md R5). Safe. -/
  | noSuchId (id : Nat)
  /-- Raised by a prefetch that is not one of the three packets after the last one fetched (spec/70_reset_and_hazards.md
  R575). Safe. -/
  | prefetchTooFar (addr : Nat)
  /-- Raised by an event the platform cannot assert (spec/45_intc.md R430). Safe. -/
  | noSuchEvent (e : Nat)
  /-- Raised by NMI on a device without it (spec/45_intc.md R411). Safe. -/
  | noNmi
  /-- Raised by a platform write that does not lie outside the megamodule (spec/20_memory.md R112). Safe. -/
  | notOutside (addr : Nat)
  /-- Raised by an access of a CPU that is stopped (spec/10_state.md R21), or that has an access under way, whose next step is
  `accessMore`. Safe. -/
  | cpuStopped
  deriving DecidableEq, Repr

/-- The lock after reset (spec/46_mpa.md R480). -/
def Lock.reset : Lock :=
  { lk := false, armed := false, key := Vector.replicate 4 0#32, tmp := Vector.replicate 4 0#32
    seen := Vector.replicate 4 false }

/-- The fault registers after reset; `known` says whether the spec gives `XMPFAR` its value (spec/10_state.md R77). -/
def Mp.reset (known : Bool) : Mp := { far := 0#32, farKnown := known, fsr := 0#32, lock := Lock.reset }

/-- A base address register after reset: indeterminate, never written (spec/10_state.md R26; notes/assumptions/5.md). -/
def Bar.reset : Bar := { value := 0#32, fresh := false }

/-- An IDMA channel after reset (spec/10_state.md R47 to R55, R91). -/
def Chan.reset : Chan :=
  { mask := 0#32, source := 0#32, dest := 0#32, count := 0#32, active := none, pending := none, stage := .none }

/-- The CPU side after reset: supervisor (G1), interrupts disabled (G4), exceptions disabled (spec/60_exceptions.md R536,
R537, R543; notes/assumptions/7.md). -/
def Cpu.reset : Cpu :=
  { priv := .supervisor, running := true, idle := false, ifr := 0#16, ier := 0#16, gie := false, gee := false
    efr := { nmi := false, excep := false, internal := false, software := false }, rep := 0#32, handler := .none
    prevInt := 0#16, prevExcep := false, lastFetch := none, rest := none, ahead := [], issued := none }

/-- The interrupt controller after reset (spec/10_state.md R61 to R72). -/
def Intc.reset : Intc :=
  { evtFlag := Vector.replicate 4 0#32, evtMask := #v[0x0000000F#32, 0#32, 0#32, 0#32]
    expMask := Vector.replicate 4 0xFFFFFFFF#32, intMux := #v[0x07060504#32, 0x0B0A0908#32, 0x0F0E0D0C#32]
    intXStat := 0#32, intDMask := 0#32, aegMux := #v[0x03020100#32, 0x07060504#32], pulses := [] }

/-- The bandwidth management registers after reset (spec/10_state.md R56 to R60, R92). -/
def Bwm.reset : Bwm :=
  { cpuarbd := 0x00010010#32, cpuarbu := 0x00010010#32, cpuarbe := 0x00010010#32
    idmaarbd := 0x00000010#32, idmaarbu := 0x00000010#32, idmaarbe := 0x00000010#32
    sdmaarbd := 0x00000001#32, sdmaarbu := 0x00000001#32, sdmaarbe := 0x00000001#32
    ucarbd := 0x00000020#32, ucarbu := 0x00000020#32, mdmaarbe := 0x00070000#32, cnt := Vector.replicate 16 0 }

/-- L1P after reset on a platform (spec/70_reset_and_hazards.md R562, R563). -/
def L1p.reset (p : Platform) : L1p :=
  { mode := p.l1p.modeReset, oper := false, poper := false, ibar := Bar.reset, lines := [], op := none
    mppa := p.l1p.mppaReset }

/-- L1D after reset on a platform (spec/70_reset_and_hazards.md R562, R563). -/
def L1d.reset (p : Platform) : L1d :=
  { mode := p.l1d.modeReset, oper := false, poper := false, wibar := Bar.reset, wbar := Bar.reset, ibar := Bar.reset
    lines := [], lru := [], wbuf := [], victim := none, op := none, mppa := p.l1d.mppaReset }

/-- L2 after reset on a platform: all SRAM (spec/70_reset_and_hazards.md R562, R563). -/
def L2.reset (p : Platform) : L2 :=
  { mode := 0#3, cc := false, wbar := Bar.reset, wibar := Bar.reset, ibar := Bar.reset, lines := [], lru := []
    op := none, mar := Vector.replicate 256 false, sleep := Vector.replicate 4 false, mppa := p.l2.mppaReset
    out := none }

/-- Every field after a global reset of a platform, memory holding the platform's initial contents
(spec/70_reset_and_hazards.md R560, R564, R566). No controller is asleep then, whatever the cache modes (R560;
notes/assumptions/20.md). -/
def State.resetOf (p : Platform) : State :=
  { plat := p, cpu := Cpu.reset, intc := Intc.reset
    pdc := { megpd := false, sploop := false, mmAsleep := false, l1pAsleep := false, l1dAsleep := false, l2Asleep := false }
    idma0 := Chan.reset, idma1 := Chan.reset, bwm := Bwm.reset
    emc := { busErr := 0#32, replies := [], requests := [], bursts := [], fills := [] }
    l1p := L1p.reset p, l1d := L1d.reset p, l2 := L2.reset p
    mpL1P := Mp.reset false, mpL1D := Mp.reset false, mpL2 := Mp.reset true
    mem := Memory.initial p.initial, agenda := [], reply := .none, free := 0 }

/-- The machine right after reset, on the reference platform (notes/assumptions/3.md). -/
def State.reset : State := State.resetOf Config.ref

/-! The named updates of the state: one for each field that a step may change. -/

def State.setCpu (s : State) (x : Cpu) : State := { s with cpu := x }
def State.setIntc (s : State) (x : Intc) : State := { s with intc := x }
def State.setPdc (s : State) (x : Pdc) : State := { s with pdc := x }
def State.setIdma0 (s : State) (x : Chan) : State := { s with idma0 := x }
def State.setIdma1 (s : State) (x : Chan) : State := { s with idma1 := x }
def State.setBwm (s : State) (x : Bwm) : State := { s with bwm := x }
def State.setEmc (s : State) (x : Emc) : State := { s with emc := x }
def State.setL1p (s : State) (x : L1p) : State := { s with l1p := x }
def State.setL1d (s : State) (x : L1d) : State := { s with l1d := x }
def State.setL2 (s : State) (x : L2) : State := { s with l2 := x }
def State.setMpL1P (s : State) (x : Mp) : State := { s with mpL1P := x }
def State.setMpL1D (s : State) (x : Mp) : State := { s with mpL1D := x }
def State.setMpL2 (s : State) (x : Mp) : State := { s with mpL2 := x }
def State.setMem (s : State) (x : Memory) : State := { s with mem := x }
def State.setAgenda (s : State) (x : List Action) : State := { s with agenda := x }
def State.setReply (s : State) (x : Reply) : State := { s with reply := x }
def State.setFree (s : State) (x : Nat) : State := { s with free := x }

end Sys2Proof.Machine
end

