-- ==== Sys2Proof/Machine/Operands.lean ====
section
/-!
DEFINITION. Operand forms: bit fields, the implemented bits of each register, byte order, the regions of the address space,
protection pages and cache geometry. Pure functions of values, platform and register contents.
-/
namespace Sys2Proof.Machine

/-! ### Bit fields -/

/-- The field of `n` bits from bit `lo` up (spec/00_scope.md R8, `v[a:b]`). -/
def field (v : Word) (lo n : Nat) : Nat := v.toNat / 2 ^ lo % 2 ^ n

/-- `v[i]`. -/
def bit (v : Word) (i : Nat) : Bool := v.getLsbD i

/-- The implemented bits of a register: a reserved bit ignores writes and reads 0 (spec/10_state.md R99). -/
def implemented (mask v : Word) : Word := v &&& mask

/-- Implemented bits of `CPUARBx`: PRI, MAXWAIT (spec/10_state.md R56). -/
def cpuarbMask : Word := 0x0007003F#32
/-- Implemented bits of `UCARBx`, `IDMAARBx`, `SDMAARBx`: MAXWAIT (spec/10_state.md R57 to R59). -/
def maxwaitMask : Word := 0x0000003F#32
/-- Implemented bits of `MDMAARBE`: PRI (spec/10_state.md R60). -/
def mdmaarbMask : Word := 0x00070000#32
/-- Implemented bits of `INTMUXn` (spec/10_state.md R68). -/
def intmuxMask : Word := 0x7F7F7F7F#32
/-- Implemented bits of `INTDMASK` (spec/10_state.md R71). -/
def intdmaskMask : Word := 0x0000FFF0#32
/-- Implemented bits of `IDMA0_SOURCE` and `IDMA0_DEST` (spec/10_state.md R49, R50). -/
def idma0AddrMask : Word := 0xFFFFFFE0#32
/-- Implemented bits of `IDMA0_COUNT`: INT, COUNT (spec/10_state.md R51). -/
def idma0CountMask : Word := 0x1000000F#32
/-- Implemented bits of `IDMA1_COUNT`: PRI, INT, FILL, COUNT (spec/10_state.md R55). -/
def idma1CountMask : Word := 0xF001FFFF#32
/-- Implemented bits of `L1PMPPAn` and `L2MPPAn` (spec/10_state.md R74, R76). -/
def mppaMask : Word := 0x0000FF3F#32
/-- Implemented bits of `L1DMPPAn`: no SX, no UX (spec/10_state.md R75). -/
def l1dMppaMask : Word := 0x0000FF36#32
/-- The bits of `EVTFLAG0`, `EVTMASK0`, `EXPMASK0` that stand for events 0 to 3 (spec/45_intc.md R413, R418, R427). -/
def combinedBits : Word := 0x0000000F#32

/-! ### Byte order (spec/20_memory.md R104) -/

/-- The `n` bytes of a value in little-endian order: byte `i` holds bits `8 i + 7 : 8 i`. -/
def littleBytes (v : Nat) : Nat → List Byte
  | 0 => []
  | n + 1 => BitVec.ofNat 8 v :: littleBytes (v / 256) n

/-- The value of bytes in little-endian order. -/
def littleValue : List Byte → Nat
  | [] => 0
  | b :: t => b.toNat + 256 * littleValue t

/-- The bytes of an `n`-byte value at rising addresses. -/
def bytesOf (e : Endian) (v n : Nat) : List Byte :=
  match e with
  | .little => littleBytes v n
  | .big => (littleBytes v n).reverse

/-- The value of bytes at rising addresses. -/
def valueOf (e : Endian) (bs : List Byte) : Nat :=
  match e with
  | .little => littleValue bs
  | .big => littleValue bs.reverse

/-- `bs` with `new` laid over it from offset `o`, where `new` has a byte. -/
def overlay (bs : List Byte) (o : Nat) (new : List (Option Byte)) : List Byte :=
  bs.mapIdx fun i b => if o ≤ i then ((new[i - o]?).join).getD b else b

/-- How many of the next `n` bytes at `a` one step carries: an aligned word, an aligned half-word or a byte, the longest of
them that starts at `a` and does not pass the end (spec/20_memory.md R108: an aligned access of at most 32 bits is one step). -/
def unitLen (a n : Nat) : Nat := if a % 4 = 0 ∧ 4 ≤ n then 4 else if a % 2 = 0 ∧ 2 ≤ n then 2 else min n 1

/-- The access of `n` bytes at `a` is more than one aligned word, half-word or byte: it is a sequence of steps
(spec/20_memory.md R108). -/
def severalSteps (a n : Nat) : Bool := decide (unitLen a n < n)

/-- The unit of the access of `n` bytes at `a` that holds address `x`, its address and its length: the longest aligned word,
half-word or byte that holds `x` and lies in the access. -/
def unitAt (a n x : Nat) : Nat × Nat :=
  if a ≤ x / 4 * 4 ∧ x / 4 * 4 + 4 ≤ a + n then (x / 4 * 4, 4)
  else if a ≤ x / 2 * 2 ∧ x / 2 * 2 + 2 ≤ a + n then (x / 2 * 2, 2)
  else (x, 1)

/-- The address space ends at FFFF FFFFh (spec/20_memory.md R103). -/
def topOfMemory : Nat := 0x100000000

/-- The bytes `o .. o + n - 1` of a line. -/
def slice (bs : List Byte) (o n : Nat) : List Byte := (bs.drop o).take n

end Sys2Proof.Machine

namespace Sys2Proof

/-! ### Cache sizes -/

/-- The size a level 1 mode requests (spec/40_l1p.md R178, spec/41_l1d.md R230). -/
def requestedL1 (m : BitVec 3) : Nat :=
  if m = 0 then 0 else if m = 1 then 0x1000 else if m = 2 then 0x2000 else if m = 3 then 0x4000 else 0x8000

/-- The size an L2 mode requests (spec/42_l2.md R285). -/
def requestedL2 (m : BitVec 3) : Nat :=
  if m = 0 then 0 else if m = 1 then 0x8000 else if m = 2 then 0x10000 else if m = 3 then 0x20000 else 0x40000

/-- `CacheSize(m) = min(Requested(m), MAX)` at level 1. -/
def L1Params.cacheSize (p : L1Params) (m : BitVec 3) : Nat := min (requestedL1 m) p.maxCache

/-- `CacheSizeL2(m)`. -/
def L2Params.cacheSize (p : L2Params) (m : BitVec 3) : Nat := min (requestedL2 m) p.maxCache

/-- The end of a level 1 memory: `BASE + R0_SIZE + R1_SIZE`. -/
def L1Params.top (p : L1Params) : Nat := p.base + p.r0Size + p.r1Size

/-- The addresses of a level 1 memory that a cache of `size` bytes takes: the highest ones (spec/40_l1p.md R175,
spec/41_l1d.md R223). -/
def L1Params.cacheSpan (p : L1Params) (size : Nat) : Span := ⟨p.top - size, size⟩

/-- `L2_CACHE_RANGE(size)` (spec/42_l2.md R284). A size for which the platform lists no range takes the highest addresses of
port 0, since the source does not state which ones a cache takes (spec/91_not_in_source.md N7; DESIGN CHOICE, unsafe:
notes/assumptions/3.md). -/
def L2Params.cacheSpan (p : L2Params) (size : Nat) : Span :=
  match p.cacheRange.lookup size with
  | some b => ⟨b, size⟩
  | none => ⟨p.p0Base + p.p0Size - size, size⟩

/-- The address lies in the level 1 memory, RAM or cache. -/
def L1Params.has (p : L1Params) (a : Nat) : Bool := p.base ≤ a && a < p.top

/-- `PageL1P(a)`, `PageL1D(a)` (spec/40_l1p.md R209, spec/41_l1d.md R267). -/
def L1Params.page (p : L1Params) (a : Nat) : Nat :=
  if a < p.base + p.r0Size then (a - p.base) / p.page0 else 16 + (a - p.base - p.r0Size) / p.page1

/-- The address lies on L2 port 0. -/
def L2Params.inPort0 (p : L2Params) (a : Nat) : Bool := p.p0Base ≤ a && a < p.p0Base + p.p0Size

/-- The address lies on L2 port 1. -/
def L2Params.inPort1 (p : L2Params) (a : Nat) : Bool := p.p1Base ≤ a && a < p.p1Base + p.p1Size

/-- `PageL2(a)` (spec/42_l2.md R344). -/
def L2Params.page (p : L2Params) (a : Nat) : Nat :=
  if p.inPort0 a then (a - p.p0Base) / p.page0 else 32 + (a - p.p1Base) / p.page1

/-- `ExtPerm(a)`: the permission value of an address outside L2 RAM (spec/42_l2.md R342, spec/92_eei_decisions.md D11). -/
def Platform.permOutside (p : Platform) (a : Nat) : BitVec 16 :=
  match p.extPerm.find? fun e => e.1.has a with
  | some e => e.2
  | none => 0xFFFF#16

/-- The address lies in a ROM part (spec/00_scope.md R5). -/
def Platform.isRom (p : Platform) (a : Nat) : Bool :=
  Span.anyHas p.l1p.rom a || Span.anyHas p.l1d.rom a || Span.anyHas p.l2.rom a

/-- Masked bytes at `a` without those that a ROM part holds: ROM parts have any bounds (spec/00_scope.md R5). -/
def Platform.maskRom (p : Platform) (a : Nat) (bs : List (Option Byte)) : List (Option Byte) :=
  bs.mapIdx fun i b => if p.isRom (a + i) then none else b

end Sys2Proof

namespace Sys2Proof.Machine

/-! ### Regions (spec/20_memory.md R102) -/

/-- The classes of address of spec/20_memory.md R102. -/
inductive Region
  | intReg
  | l1pRam
  | l1pCacheArea
  | l1dRam
  | l1dCacheArea
  | l2Ram
  | l2CacheArea
  | extCfg
  | intUnlisted
  | external
  deriving DecidableEq, Repr

/-- The present size of the L1P cache. -/
def State.l1pSize (s : State) : Nat := s.plat.l1p.cacheSize s.l1p.mode
/-- The present size of the L1D cache. -/
def State.l1dSize (s : State) : Nat := s.plat.l1d.cacheSize s.l1d.mode
/-- The present size of the L2 cache. -/
def State.l2Size (s : State) : Nat := s.plat.l2.cacheSize s.l2.mode

/-- `InL1PRAM(a)` (spec/40_l1p.md R175). -/
def State.inL1PRam (s : State) (a : Nat) : Bool :=
  s.plat.l1p.has a && !(s.plat.l1p.cacheSpan s.l1pSize).has a

/-- `InL1DRAM(a)` (spec/41_l1d.md R223). -/
def State.inL1DRam (s : State) (a : Nat) : Bool :=
  s.plat.l1d.has a && !(s.plat.l1d.cacheSpan s.l1dSize).has a

/-- `InL2RAM(a)` (spec/42_l2.md R281). -/
def State.inL2Ram (s : State) (a : Nat) : Bool :=
  (s.plat.l2.inPort0 a && !(s.plat.l2.cacheSpan s.l2Size).has a) || s.plat.l2.inPort1 a

/-- `InCFG(a)` (spec/43_idma.md R356). -/
def State.inCfg (s : State) (a : Nat) : Bool := Span.anyHas s.plat.cfgRange a

/-- `Region(a)`: the first matching line wins (spec/20_memory.md R102). -/
def State.region (s : State) (a : Nat) : Region :=
  if (Reg.ofAddrOn s.plat.aegmuxBase (a / 4 * 4)).isSome then .intReg
  else if s.inL1PRam a then .l1pRam
  else if s.plat.l1p.has a then .l1pCacheArea
  else if s.inL1DRam a then .l1dRam
  else if s.plat.l1d.has a then .l1dCacheArea
  else if s.inL2Ram a then .l2Ram
  else if s.plat.l2.inPort0 a then .l2CacheArea
  else if s.inCfg a then .extCfg
  else if Reg.inBlocks a then .intUnlisted
  else .external

/-- `MARn.PC` as it reads: `MAR0` is 1 and `MAR1` to `MAR15` are 0, whatever is stored (spec/42_l2.md R317). -/
def State.marPc (s : State) (n : Nat) : Bool :=
  if n = 0 then true else if n ≤ 15 then false else (s.l2.mar[n]?).getD false

/-- `Cacheable(a)` (spec/42_l2.md R316). -/
def State.cacheable (s : State) (a : Nat) : Bool := s.inL2Ram a || s.marPc (a / 0x1000000)

/-- The entry of a page attribute file, as 16 bits; a page beyond the file has none. -/
def entryOf {n : Nat} (v : Vector Word n) (i : Nat) : BitVec 16 := ((v[i]?).getD 0#32).setWidth 16

/-- The permission value L2 returns with a line (spec/42_l2.md R342, R343). -/
def State.l2Perm (s : State) (a : Nat) : BitVec 16 :=
  if s.inL2Ram a then entryOf s.l2.mppa (s.plat.l2.page a) else s.plat.permOutside a

/-! ### Cache geometry -/

/-- The number of sets of each cache at a size: 32-byte lines direct mapped, 64-byte lines two-way, 128-byte lines four-way
(spec/40_l1p.md R176, spec/41_l1d.md R224, spec/42_l2.md R285). -/
def setsOf (x : Block) (size : Nat) : Nat :=
  match x with
  | .l1p => size / 32
  | .l1d => size / 128
  | .l2 => size / 512

/-- The line size of each cache. -/
def lineSize : Block → Nat
  | .l1p => 32
  | .l1d => 64
  | .l2 => 128

/-- `set(a)` in a cache of that many sets. -/
def setOf (x : Block) (sets a : Nat) : Nat := a / lineSize x % sets

/-- `tag(a)` in a cache of that many sets. -/
def tagOf (x : Block) (sets a : Nat) : Nat := a / lineSize x / sets

/-- The address of a line. -/
def Line.addr (x : Block) (sets : Nat) (l : Line) : Nat := (l.tag * sets + l.set) * lineSize x

/-- The line overlaps the byte range `[base, base + 4 words)` (spec/42_l2.md R308). -/
def overlaps (x : Block) (lineAddr base words : Nat) : Bool :=
  decide (lineAddr < base + 4 * words) && decide (base < lineAddr + lineSize x)

end Sys2Proof.Machine
end

