-- ==== Sys2Proof/Machine/Flags.lean ====
section
/-!
DEFINITION. Flag and status computations: the event combiners, the interrupt selector, dropped interrupts, the permission
check and the fault status value.
-/
namespace Sys2Proof.Machine

/-! ### Events (spec/45_intc.md) -/

/-- The event flag of event `e` set (spec/45_intc.md R412). -/
def Intc.withFlag (c : Intc) (e : Nat) : Intc :=
  if h : e / 32 < 4 then { c with evtFlag := c.evtFlag.set (e / 32) (c.evtFlag[e / 32] ||| bitAt (e % 32) true) } else c

/-- The flags combined into the event combiner's output `n`: `MEVTFLAGn` (spec/45_intc.md R417, R419). -/
def Intc.masked (c : Intc) (n : Fin 4) : Word := c.evtFlag[n] &&& ~~~c.evtMask[n]

/-- The flags combined into EXCEP: `MEXPFLAGn` (spec/45_intc.md R426, R427). -/
def Intc.expMasked (c : Intc) (n : Fin 4) : Word := c.evtFlag[n] &&& ~~~c.expMask[n]

/-- `EVT[n]` (spec/45_intc.md R417). -/
def Intc.evt (c : Intc) (n : Fin 4) : Bool := c.masked n ≠ 0

/-- `EXCEP` (spec/45_intc.md R426). -/
def Intc.excep (c : Intc) : Bool :=
  (c.expMasked 0 ||| c.expMasked 1 ||| c.expMasked 2 ||| c.expMasked 3) ≠ 0

/-- `INTSELk`, k = 4 to 15 (spec/45_intc.md R421). -/
def Intc.intsel (c : Intc) (k : Nat) : Nat := field ((c.intMux[k / 4 - 1]?).getD 0#32) (8 * (k % 4)) 7

/-- The level part of `CPUINT[k]`: the selected combiner output (spec/45_intc.md R421). -/
def Intc.level (c : Intc) (k : Nat) : Bool :=
  if h : c.intsel k < 4 then c.evt ⟨c.intsel k, h⟩ else false

/-- `CPUINT[k]` in the step under way: a combiner output is a level, any other event is its pulse (spec/45_intc.md R421). -/
def Intc.cpuint (c : Intc) (k : Nat) : Bool :=
  if c.intsel k < 4 then c.level k else c.pulses.contains (c.intsel k)

/-- The CPU interrupt inputs of the interrupt controller, in order of number. -/
def cpuints : List Nat := [4, 5, 6, 7, 8, 9, 10, 11, 12, 13, 14, 15]

/-- `IDM[k]` (spec/10_state.md R71). -/
def Intc.dropMasked (c : Intc) (k : Nat) : Bool := bit c.intDMask k

/-- `INTXSTAT` as a drop on CPUINTk records it (spec/45_intc.md R424). -/
def dropStatus (sysint k : Nat) : Word := BitVec.ofNat 32 (sysint * 2 ^ 24 + k * 2 ^ 16 + 1)

/-- A bit of a 16-bit CPU flag register set. -/
def setFlag (v : BitVec 16) (k : Nat) : BitVec 16 := v ||| BitVec.ofNat 16 (2 ^ k)

/-- A bit of a 16-bit CPU flag register cleared. -/
def clearFlag (v : BitVec 16) (k : Nat) : BitVec 16 := v &&& ~~~(BitVec.ofNat 16 (2 ^ k))

/-- `BUSERR` as an error is recorded: ERR, XID, STAT (spec/47_pdc_misc.md R507). -/
def busErrValue (op : BusOp) (xid : BitVec 4) (stat : BitVec 3) : Word :=
  let err := match op with
    | .mdmaRead => 1
    | .mdmaWrite => 2
    | .cfgRead => 3
    | .cfgWrite => 4
  BitVec.ofNat 32 (err * 2 ^ 29 + xid.toNat * 2 ^ 8 + stat.toNat)

/-! ### Memory protection (spec/46_mpa.md) -/

/-- The allowed-ID bit that judges an access (spec/46_mpa.md R471, R472). -/
def idAllowed (e : BitVec 16) (id : Nat) (isLocal : Bool) : Bool :=
  if isLocal then e.getLsbD 8 else if id ≤ 5 then e.getLsbD (10 + id) else e.getLsbD 9

/-- The bit of a permission entry, and of the fault status, that stands for a privilege and a kind (spec/46_mpa.md R463). -/
def typeBit (p : Priv) (k : Kind) : Nat :=
  match p, k with
  | .supervisor, .read => 5
  | .supervisor, .write => 4
  | .supervisor, .execute => 3
  | .user, .read => 2
  | .user, .write => 1
  | .user, .execute => 0

/-- `Permitted(e, id, priv, kind, local)` (spec/46_mpa.md R472). -/
def permitted (e : BitVec 16) (id : Nat) (p : Priv) (k : Kind) (isLocal : Bool) : Bool :=
  idAllowed e id isLocal && e.getLsbD (typeBit p k)

/-- The execute check of a fetch: only SX or UX (spec/40_l1p.md R206). -/
def mayExecute (e : BitVec 16) (p : Priv) : Bool := e.getLsbD (typeBit p .execute)

/-- Who made a faulting access (spec/46_mpa.md R478). -/
inductive Origin
  | local
  | remote
  deriving DecidableEq, Repr

/-- `XMPFSR` as a fault is recorded. The three blocks implement the type bits SR, SW, UR, UW (spec/46_mpa.md R477, R478). -/
def faultStatus (o : Origin) (p : Priv) (k : Kind) (id : Nat) : Word :=
  let who : Word := match o with
    | .local => 0x00000100#32
    | .remote => BitVec.ofNat 32 (id % 128 * 2 ^ 9)
  who ||| (bitAt (typeBit p k) true &&& 0x00000036#32)

/-- The event of a fault in a block (spec/46_mpa.md R478). -/
def faultEvent (x : Block) (o : Origin) : Nat :=
  match x, o with
  | .l1p, .local => 120
  | .l1p, .remote => 121
  | .l1d, .local => 122
  | .l1d, .remote => 123
  | .l2, .local => 124
  | .l2, .remote => 125

/-- Whether a fault is recorded over what the block holds: nothing held, or a local fault over a remote one in L1P and L2
(spec/46_mpa.md R478). -/
def records (x : Block) (o : Origin) (fsr : Word) : Bool :=
  fsr = 0 || (x ≠ .l1d && o = .local && !bit fsr 8)

/-! ### Bandwidth management (spec/44_bwm.md) -/

/-- The waits a `MAXWAIT` field may name (spec/44_bwm.md R395). -/
def legalWaits : List Nat := [0, 1, 2, 4, 8, 16, 32]

/-- Some legal wait (a free value: notes/assumptions/28.md). -/
def freeWait (stamp : Nat) : Nat := (legalWaits[(Config.freeWord stamp).toNat % 7]?).getD 0

/-- The wait a `MAXWAIT` field stands for; a reserved value stands for some legal wait
(spec/93_implementation_defined.md U16, a free value: notes/assumptions/28.md). -/
def maxWait (v : Word) (stamp : Nat) : Nat :=
  if legalWaits.contains (field v 0 6) then field v 0 6 else freeWait stamp

end Sys2Proof.Machine
end

