-- ==== Sys2Proof/Machine/Ops.lean ====
section
/-!
DEFINITION. The named operations every meaning is written over: memory, free values, raising an event, recording a fault
(what taking an exception is in this hardware, spec/60_exceptions.md R520), the CPU's side of interrupts and exceptions,
register replies, and transactions on the MDMA and CFG ports.
-/
namespace Sys2Proof.Machine

/-! ### Outcomes -/

/-- Why an operation stops. -/
inductive Stop where
  | fault (f : Fault)
  | refused (r : Refusal)
  deriving DecidableEq, Repr

/-- An operation that may stop, as an outcome of the machine. -/
def outcome : Except Stop State → Host.Outcome State Fault Refusal
  | .ok s => .next s
  | .error (.fault f) => .fault f
  | .error (.refused r) => .refused r

/-! ### Bytes of the megamodule's memories -/

/-- Masked bytes written to a memory of the megamodule: every byte of a ROM part keeps its contents
(spec/93_implementation_defined.md U2). -/
def State.putMasked (s : State) (a : Nat) (bs : List (Option Byte)) : State :=
  s.setMem (s.mem.writeMasked a (s.plat.maskRom a bs))

/-- Bytes written to a memory of the megamodule. -/
def State.putBytes (s : State) (a : Nat) (bs : List Byte) : State := s.putMasked a (bs.map some)

/-! ### Free values (spec/93_implementation_defined.md, notes/assumptions/6.md) -/

/-- The state after one free value has been used. -/
def State.spend (s : State) : State := s.setFree (s.free + 1)

/-- Every ROM part of the megamodule's memories. -/
def platRoms (p : Platform) : List Span := p.l1p.rom ++ p.l1d.rom ++ p.l2.rom

/-- The RAM of a range loses its contents; an empty range loses nothing (spec/93_implementation_defined.md U4). -/
def State.forget (s : State) (r : Span) : State :=
  if r.size = 0 then s else (s.setMem (s.mem.forget ⟨r, (platRoms s.plat), s.free⟩)).spend

/-- `n` bytes of unspecified value. -/
def freeBytes (stamp n : Nat) : List Byte := (List.range n).map fun i => Config.freeByte stamp i

/-! ### Replies of register commands (spec/30_encoding.md R152) -/

/-- A read command: the result is answered and nothing else changes (spec/20_memory.md R110). -/
def State.answer (s : State) (v : Word) : Host.Outcome State Fault Refusal := .next (s.setReply (.word v))

/-- A write command: nothing is answered. -/
def State.done (s : State) : Host.Outcome State Fault Refusal := .next (s.setReply .none)

/-! ### Events and faults -/

/-- `raise Event(e)`: the flag is latched and the event is pulsed (spec/45_intc.md R412). -/
def State.raise (s : State) (e : Nat) : State :=
  s.setIntc { s.intc.withFlag e with pulses := s.intc.pulses ++ [e] }

/-- The fault registers and the lock of a block. -/
def State.mp (s : State) : Block → Mp
  | .l1p => s.mpL1P
  | .l1d => s.mpL1D
  | .l2 => s.mpL2

/-- The fault registers and the lock of a block, updated. -/
def State.setMp (s : State) (x : Block) (m : Mp) : State :=
  match x with
  | .l1p => s.setMpL1P m
  | .l1d => s.setMpL1D m
  | .l2 => s.setMpL2 m

/-- `RecordFault(X, origin, addr, type, id)`: the shared operation of every memory protection exception
(spec/46_mpa.md R478, spec/60_exceptions.md R524, R525). Without memory protection there is nothing to record into
(spec/00_scope.md R5, `HAS_MP`). -/
def State.recordFault (s : State) (x : Block) (o : Origin) (addr : Nat) (p : Priv) (k : Kind) (id : Nat) : State :=
  if s.plat.hasMp && records x o (s.mp x).fsr then
    (s.setMp x { s.mp x with far := BitVec.ofNat 32 addr, farKnown := true, fsr := faultStatus o p k id }).raise
      (faultEvent x o)
  else s

/-- The block that owns a register, for a refused write (spec/60_exceptions.md R528, spec/10_state.md R97). -/
inductive Owner
  | block (x : Block)
  | other
  deriving DecidableEq, Repr

/-- `RegisterPermissionFault(B)`: a user write to a supervisor-only register. The register keeps its value
(spec/60_exceptions.md R528). -/
def State.registerPermissionFault (s : State) (o : Owner) (addr : Nat) : State :=
  match o with
  | .block x => s.recordFault x .local addr .user .write s.plat.cpuId
  | .other =>
    match s.plat.regFaultEvent with
    | .none => s
    | .sysCmpa => s.raise 119
    | .emcCmpa => s.raise 126

/-- The privilege check of a supervisor-only register: user mode fails it. Without memory protection no permission check is
made anywhere (spec/00_scope.md R5, `HAS_MP`). -/
def State.mayWrite (s : State) : Bool := !s.plat.hasMp || s.cpu.priv = .supervisor

/-- A supervisor-only write: the effect `f` where the check allows it, else the register permission fault
(spec/30_encoding.md R152). -/
def State.supervisorWrite (s : State) (o : Owner) (addr : Nat) (f : State → State) : Host.Outcome State Fault Refusal :=
  if s.mayWrite then (f s).done else (s.registerPermissionFault o addr).done

/-- `LockFault(r)` and the refused write of a locked page attribute (spec/46_mpa.md R484, R485). -/
def State.lockFault (s : State) (x : Block) (addr : Nat) : State :=
  s.recordFault x .local addr .supervisor .write s.plat.cpuId

/-- Whether a permission entry allows an access on this platform: without memory protection no check is made
(spec/00_scope.md R5, `HAS_MP`). -/
def State.allows (s : State) (e : BitVec 16) (id : Nat) (p : Priv) (k : Kind) (isLocal : Bool) : Bool :=
  !s.plat.hasMp || permitted e id p k isLocal

/-! ### The CPU's side of interrupts and exceptions (spec/60_exceptions.md R535 to R539) -/

/-- A drop on CPUINTk is reported: recorded and signalled if none is held and CPUINTk is not masked (spec/45_intc.md
R424). -/
def State.reportDrop (s : State) (k : Nat) : State :=
  if !s.intc.dropMasked k && !bit s.intc.intXStat 0 then
    (s.setIntc { s.intc with intXStat := dropStatus (s.intc.intsel k) k }).raise 96
  else s

/-- A rising edge on CPUINTk: the flag is set, or the interrupt is dropped (spec/60_exceptions.md R535). -/
def State.receiveInterrupt (s : State) (k : Nat) : State :=
  if s.cpu.ifr.getLsbD k then s.reportDrop k else s.setCpu { s.cpu with ifr := setFlag s.cpu.ifr k }

/-- The inputs `CPUINTk` that rise in the step under way (spec/60_exceptions.md R535). -/
def State.risingInputs (s : State) : List Nat :=
  cpuints.filter fun k => s.intc.cpuint k && !s.cpu.prevInt.getLsbD k

/-- The twelve inputs `CPUINT[k]` of the step under way, levels and pulses, as a 16-bit vector (spec/60_exceptions.md
R535). -/
def Intc.inputs (c : Intc) : BitVec 16 :=
  cpuints.foldl (fun v k => if c.cpuint k then setFlag v k else v) 0#16

/-- The exception input: a rising edge of EXCEP sets its flag while exceptions are enabled (spec/60_exceptions.md R537). -/
def State.receiveExcep (s : State) : State :=
  let e := s.intc.excep
  if e && !s.cpu.prevExcep && s.cpu.gee then
    s.setCpu { s.cpu with efr := { s.cpu.efr with excep := true }, prevExcep := e }
  else s.setCpu { s.cpu with prevExcep := e }

/-- An enabled interrupt is pending, or NMI as an interrupt: what wakes an idle CPU (spec/47_pdc_misc.md R503,
notes/assumptions/20.md). -/
def Cpu.wakes (c : Cpu) : Bool :=
  c.ifr.getLsbD 1 || (c.gie && cpuints.any fun k => c.ifr.getLsbD k && c.ier.getLsbD k)

/-- `L1P.asleep`: the L1P cache is not enabled, the CPU executes from the `SPLOOP` buffer, or the megamodule is down
(spec/47_pdc_misc.md R501, R503; spec/40_l1p.md R200). -/
def State.l1pDown (s : State) : Bool := s.pdc.mmAsleep || s.pdc.sploop || s.l1pSize = 0

/-- `L1D.asleep`: the L1D cache is not enabled, or the megamodule is down (spec/47_pdc_misc.md R501, R503; spec/41_l1d.md
R262). -/
def State.l1dDown (s : State) : Bool := s.pdc.mmAsleep || s.l1dSize = 0

/-- `L2.asleep`: the L2 cache is not enabled, or the megamodule is down (spec/47_pdc_misc.md R501, R503). -/
def State.l2Down (s : State) : Bool := s.pdc.mmAsleep || s.l2Size = 0

/-- The whole megamodule powers down or up; a controller whose cache is not enabled stays in power-down
(spec/47_pdc_misc.md R501 (c), R503). -/
def State.setPower (s : State) (down : Bool) : State :=
  let u := s.setPdc { s.pdc with mmAsleep := down }
  u.setPdc { u.pdc with l1pAsleep := u.l1pDown, l1dAsleep := u.l1dDown, l2Asleep := u.l2Down }

/-- The megamodule powers up and the CPU resumes (spec/47_pdc_misc.md R503). -/
def State.wake (s : State) : State :=
  if s.cpu.idle && s.cpu.wakes then (s.setCpu { s.cpu with idle := false, running := true }).setPower false else s

/-- The end of every step: the CPU samples its interrupt and exception inputs, and keeps their values for the next sampling
(spec/60_exceptions.md R535, R537). The pulses of the step are over, but event 96 raised by the sampling itself pulses in the
next step (notes/assumptions/10.md). -/
def State.sample (s : State) : State :=
  let edges := s.risingInputs
  let s0 := s.setIntc { s.intc with pulses := [] }
  let s1 := s0.receiveExcep
  let s2 := s1.setCpu { s1.cpu with prevInt := s.intc.inputs }
  (edges.foldl State.receiveInterrupt s2).wake

/-- `CpuTakesInterrupt(k)`: allowed when the flag and the enables of spec/60_exceptions.md R536 hold; the flag is cleared and
control passes to the handler (R535). NMI as an interrupt, flag 1, has no enable (R538, R539). A flag 1 posted before
exceptions were enabled stays an interrupt and never turns into an exception: what becomes of it is not stated
(spec/70_reset_and_hazards.md R582; DESIGN CHOICE, unsafe: notes/assumptions/21.md). -/
def State.takeInterrupt (s : State) (k : Nat) : State :=
  if k = 1 then
    if s.cpu.ifr.getLsbD 1 then
      s.setCpu { s.cpu with ifr := clearFlag s.cpu.ifr 1, handler := .nmiVector }
    else s
  else if cpuints.contains k && s.cpu.ifr.getLsbD k && s.cpu.ier.getLsbD k && s.cpu.gie then
    s.setCpu { s.cpu with ifr := clearFlag s.cpu.ifr k, handler := .cpuint k }
  else s

/-- The CPU accepts an exception whose flag is set, while exceptions are enabled: NMI, EXCEP and internal exceptions enter at
the NMI vector. A software exception has entered when its instruction ran, `SWENR` at `REP` only
(spec/60_exceptions.md R537 to R539; notes/assumptions/21.md). -/
def State.takeException (s : State) : State :=
  if s.cpu.gee && (s.cpu.efr.nmi || s.cpu.efr.excep || s.cpu.efr.internal) then
    s.setCpu { s.cpu with handler := .nmiVector }
  else s

/-- `SWE` or `SWENR`: the software exception flag is set; `SWE` enters at the NMI vector, `SWENR` at the address in `REP`
(spec/60_exceptions.md R538, R539). Without exceptions enabled it is not recognised (R537; notes/assumptions/21.md). -/
def State.softwareException (s : State) (swenr : Bool) : State :=
  if s.cpu.gee then
    s.setCpu { s.cpu with efr := { s.cpu.efr with software := true }
                          handler := if swenr then .rep s.cpu.rep else .nmiVector }
  else s

/-- NMI: an interrupt flag, or with exceptions enabled an exception flag (spec/60_exceptions.md R538). -/
def State.nmi (s : State) : State :=
  if s.cpu.gee then s.setCpu { s.cpu with efr := { s.cpu.efr with nmi := true } }
  else s.setCpu { s.cpu with ifr := setFlag s.cpu.ifr 1 }

/-- `FetchPermissionFault(a)`: the packet is not executed and the CPU raises an internal exception
(spec/60_exceptions.md R530). -/
def State.fetchPermissionFault (s : State) (a : Nat) : State :=
  (if s.cpu.gee then s.setCpu { s.cpu with efr := { s.cpu.efr with internal := true } } else s).setReply (.fetchRefused a)

/-! ### Accesses of more than one aligned unit (spec/20_memory.md R108, notes/assumptions/11.md) -/

/-- The units read ahead: those of external memory belong to the EMC, the others to the CPU. -/
def State.aheadOf (s : State) : AheadKind → List Ahead
  | .load | .fetch => s.cpu.ahead
  | .loadFill | .fetchFill | .drainFill => s.emc.fills

/-- The units of one kind are dropped from a list. -/
def dropKind (k : AheadKind) (l : List Ahead) : List Ahead := l.filter fun w => w.kind ≠ k

/-- A read of external memory has failed, so none of the data of its access is kept, the units it was served inside the
megamodule among them (spec/93_implementation_defined.md U17, spec/20_memory.md R112, R140). -/
def State.dropServed (s : State) : AheadKind → State
  | .loadFill => s.setCpu { s.cpu with ahead := dropKind .load s.cpu.ahead }
  | .fetchFill => s.setCpu { s.cpu with ahead := dropKind .fetch s.cpu.ahead }
  | .load | .fetch | .drainFill => s

/-- The byte at `x` as an access with that unit has read it ahead. -/
def aheadByte (l : List Ahead) (k : AheadKind) (u : Nat × Nat) (x : Nat) : Option Byte :=
  match l.find? fun w => w.kind = k && w.addr = u.1 && w.bytes.length = u.2 with
  | some w => w.bytes[x - u.1]?
  | none => none

/-- Bytes read at `a` by the access under way: a unit it has read ahead keeps the value it had then. -/
def State.tear (s : State) (k : AheadKind) (a : Nat) (bs : List Byte) : List Byte :=
  bs.mapIdx fun i b => (aheadByte (s.aheadOf k) k (unitAt a bs.length (a + i)) (a + i)).getD b

/-- The same, for a read that is a sequence of steps only where `multi` holds. -/
def State.torn (s : State) (multi : Bool) (k : AheadKind) (a : Nat) (bs : List Byte) : List Byte :=
  if multi then s.tear k a bs else bs

/-- The end of a CPU step: what was read ahead for its access is gone, and no access is under way. -/
def State.endAccess (s : State) : State :=
  (s.setCpu { s.cpu with ahead := [], issued := none }).setEmc
    { s.emc with fills := s.emc.fills.filter fun w => w.kind = .drainFill }

/-- The end of the drain of a write buffer entry: what was read ahead for it is gone. -/
def State.endDrain (s : State) : State := s.setEmc { s.emc with fills := dropKind .drainFill s.emc.fills }

/-- The units of external memory read ahead without those that hold a byte of `hit`: the access that reads these bytes is
over, or the megamodule itself has written them, so that a read after its own write sees the write
(spec/70_reset_and_hazards.md R584, spec/20_memory.md R130). -/
def State.dropFills (s : State) (hit : Nat → Bool) : State :=
  s.setEmc { s.emc with fills := s.emc.fills.filter fun w => !(List.range w.bytes.length).any fun i => hit (w.addr + i) }

/-! ### Transactions on the MDMA and CFG ports (spec/20_memory.md R111, R112) -/

/-- Bus error capture: the first error is stored and event 127 is raised (spec/47_pdc_misc.md R507). -/
def State.busError (s : State) (op : BusOp) (xid : BitVec 4) (stat : BitVec 3) : State :=
  if field s.emc.busErr 29 3 = 0 then
    (s.setEmc { s.emc with busErr := busErrValue op xid stat }).raise 127
  else s

/-- One transaction is handed to the platform with priority `MDMAARBE.PRI`; the platform's next status answers it, and an
error is captured. The Boolean says whether it succeeded (spec/44_bwm.md R397, spec/47_pdc_misc.md R507). -/
def State.transact (s : State) (op : BusOp) (a n : Nat) (p : Priv) (id : Nat) : State × Bool :=
  let req : BusRequest := { op := op, addr := a, size := n, pri := BitVec.ofNat 3 (field s.bwm.mdmaarbe 16 3), priv := p, id := id }
  match s.emc.replies with
  | [] => (s.setEmc { s.emc with requests := s.emc.requests ++ [req] }, true)
  | .ok :: t => (s.setEmc { s.emc with requests := s.emc.requests ++ [req], replies := t }, true)
  | .error xid stat :: t =>
    ((s.setEmc { s.emc with requests := s.emc.requests ++ [req], replies := t }).busError op xid stat, false)

/-- A read transaction: a failed read delivers unspecified data (spec/93_implementation_defined.md U17). -/
def State.busRead (s : State) (op : BusOp) (a n : Nat) (p : Priv) (id : Nat) : State × List Byte :=
  let r := s.transact op a n p id
  let t := r.1.dropFills fun x => a ≤ x && x < a + n
  if r.2 then (t, t.mem.readBytes a n) else (t.spend, freeBytes t.free n)

/-- Bytes arrive in memory outside the megamodule. -/
def State.extPut (s : State) (a : Nat) (bs : List (Option Byte)) : State :=
  (s.dropFills fun x => a ≤ x && (bs[x - a]?.join).isSome).setMem (s.mem.writeMasked a bs)

/-- A write transaction of `n` bytes at `first`, of which the mask has those that have not yet arrived: a failed write may or
may not take effect (spec/60_exceptions.md R523). -/
def State.busWrite (s : State) (op : BusOp) (first n a : Nat) (bs : List (Option Byte)) (p : Priv) (id : Nat) : State :=
  let r := s.transact op first n p id
  if r.2 then r.1.extPut a bs
  else if Config.freeBool r.1.free then r.1.spend.extPut a bs
  else r.1.spend

/-- A line goes out to external memory over MDMA (spec/42_l2.md R287, R321). No privilege is stated for it; the request shows
supervisor (notes/assumptions/22.md). -/
def State.extWriteLine (s : State) (v : Victim) : State :=
  s.busWrite .mdmaWrite v.addr v.bytes.length v.addr v.bytes .supervisor s.plat.cpuId

/-- The line that L2 has evicted goes out, or what is left of it: L2 makes one external transfer after the other
(spec/42_l2.md R286, R321; notes/assumptions/11.md, 12.md). -/
def State.finishOut (s : State) : State :=
  match s.l2.out with
  | none => s
  | some v => (s.setL2 { s.l2 with out := none }).extWriteLine v

/-- `ExtRead(a, n)` for L2: a sequence of reads when it is more than one aligned unit, and unspecified data when it fails
(spec/20_memory.md R108, R112; spec/42_l2.md R286, R300, R301). -/
def State.extRead (s : State) (k : AheadKind) (a n : Nat) (p : Priv) : State × List Byte :=
  let s0 := s.finishOut
  let r := s0.busRead .mdmaRead a n p s.plat.cpuId
  match s0.emc.replies with
  | .error _ _ :: _ => (r.1.dropServed k, r.2)
  | .ok :: _ | [] => (r.1, s0.torn (severalSteps a n) k a r.2)

end Sys2Proof.Machine
end

