-- ==== Sys2Proof/Machine/Cache.lean ====
section
/-!
DEFINITION. The three caches and the routes through them: L2 service, L1D loads and stores, program fetch, and DMA-class
accesses (spec/20_memory.md, 40_l1p.md, 41_l1d.md, 42_l2.md).
-/
namespace Sys2Proof.Machine

/-! ### Line frames -/

/-- The valid line of a set with a tag. -/
def findLine (ls : List Line) (set tag : Nat) : Option Line := ls.find? fun l => l.set = set && l.tag = tag

/-- The valid line in a frame. -/
def lineAt (ls : List Line) (set way : Nat) : Option Line := ls.find? fun l => l.set = set && l.way = way

/-- The frame made invalid. -/
def dropLine (ls : List Line) (set way : Nat) : List Line := ls.filter fun l => !(l.set = set && l.way = way)

/-- The frame filled with a line. -/
def putLine (ls : List Line) (l : Line) : List Line := l :: dropLine ls l.set l.way

/-- The value of a set in a replacement table. -/
def lruPut {α : Type} (t : List (Nat × α)) (set : Nat) (v : α) : List (Nat × α) := (set, v) :: t.filter fun p => p.1 ≠ set

/-! ### L2 (spec/42_l2.md) -/

/-- The sets of the L2 cache. -/
def State.l2Sets (s : State) : Nat := setsOf .l2 s.l2Size

/-- `L2Lookup(a)` (spec/42_l2.md R286). -/
def State.l2Lookup (s : State) (a : Nat) : Option Line :=
  if s.l2Sets = 0 then none else findLine s.l2.lines (setOf .l2 s.l2Sets a) (tagOf .l2 s.l2Sets a)

/-- The ways of a set, least recently used first. -/
def L2.order (c : L2) (set : Nat) : List Nat := (c.lru.lookup set).getD [0, 1, 2, 3]

/-- A way becomes the most recently used; a frozen cache does not update its order (spec/42_l2.md R290). -/
def L2.touch (c : L2) (set way : Nat) : L2 :=
  if c.cc then c else { c with lru := lruPut c.lru set ((c.order set).erase way ++ [way]) }

/-- `MayAllocateL2(a)` (spec/42_l2.md R286). -/
def State.mayAllocateL2 (s : State) (a : Nat) : Bool := s.l2Sets ≠ 0 && !s.l2.cc && s.cacheable a

/-- An access wakes the power-down pages that hold its address (spec/42_l2.md R336). -/
def State.wakePages (s : State) (a : Nat) : State :=
  s.setL2 { s.l2 with sleep := Vector.ofFn fun i => s.l2.sleep[i] && !(s.plat.l2.pdPages[i]).has a }

/-- A CPU access to an address in a sleeping page of L2 RAM wakes the page and then proceeds normally, whether it hits in L1 or
not (spec/42_l2.md R336). -/
def State.wakeForCpu (s : State) (a : Nat) : State := if s.inL2Ram a then s.wakePages a else s

/-- The bytes of a line, none of which has gone out yet. -/
def Line.out (l : Line) (x : Block) (sets : Nat) : Victim := ⟨l.addr x sets, l.data.map some⟩

/-- The dirty line that an allocation for `a` evicts: the one in the least recently used way of its set (spec/42_l2.md
R286). -/
def State.l2Victim (s : State) (a : Nat) : Option Line :=
  (lineAt s.l2.lines (setOf .l2 s.l2Sets a) ((s.l2.order (setOf .l2 s.l2Sets a)).headD 0)).filter Line.dirty

/-- That line is evicted: it leaves the cache and is on its way out. It goes before the new line is read, so what has been
read of that line already is dropped (spec/42_l2.md R286, R321; spec/20_memory.md R131). -/
def State.l2Evict (s : State) (a : Nat) : State :=
  match s.l2Victim a with
  | some l =>
    let s0 := s.finishOut.dropFills fun x => x / 128 = a / 128
    s0.setL2 { s0.l2 with lines := dropLine s0.l2.lines l.set l.way, out := some (l.out .l2 s.l2Sets) }
  | none => s

/-- `L2Allocate(a)`: the least recently used way is evicted, its line goes out, and it is filled (spec/42_l2.md R286). `k`
says for whom. -/
def State.l2Allocate (s : State) (k : AheadKind) (a : Nat) (p : Priv) : State × Line :=
  let set := setOf .l2 s.l2Sets a
  let way := (s.l2.order set).headD 0
  let r := (s.l2Evict a).extRead k (a / 128 * 128) 128 p
  let l : Line := { set := set, way := way, tag := tagOf .l2 s.l2Sets a, dirty := false, data := r.2, perm := 0xFFFF#16 }
  (r.1.setL2 ({ r.1.l2 with lines := putLine r.1.l2.lines l }.touch set way), l)

/-- `L2Read(a, n)` and `L2Fetch(a, 32)`: service of an L1 miss (spec/42_l2.md R300, R301). `k` says which. -/
def State.l2Read (s : State) (k : AheadKind) (a n : Nat) (p : Priv) : State × List Byte :=
  if s.inL2Ram a then (s.wakePages a, s.mem.readBytes a n)
  else match s.l2Lookup a with
    | some l => (s.setL2 (s.l2.touch l.set l.way), slice l.data (a % 128) n)
    | none =>
      if s.mayAllocateL2 a then
        let r := s.l2Allocate k a p
        (r.1, slice r.2.data (a % 128) n)
      else s.extRead k a n p

/-- Service of a load miss that L1D then denies: L2 does not check it and reads the data (spec/42_l2.md R301, R342), but no
line is allocated and no cache state changes (spec/60_exceptions.md R523; notes/assumptions/18.md). -/
def State.l2Probe (s : State) (a n : Nat) (p : Priv) : State :=
  if s.inL2Ram a then s.wakePages a
  else if (s.l2Lookup a).isSome then s
  else if s.mayAllocateL2 a then (s.extRead .loadFill (a / 128 * 128) 128 p).1
  else (s.extRead .loadFill a n p).1

/-- A line of the L2 cache takes written bytes and becomes dirty (spec/42_l2.md R303, R322). -/
def State.l2Merge (s : State) (l : Line) (o : Nat) (bs : List (Option Byte)) : State :=
  s.setL2 { s.l2 with lines := putLine s.l2.lines { l with data := overlay l.data o bs, dirty := true } }

/-- `L2Write(a, n, v, priv)`: service of a write buffer entry (spec/42_l2.md R303, R341). A CPU write to external
configuration space leaves by the CFG port (spec/20_memory.md R111). -/
def State.l2Write (s : State) (e : WbEntry) : State :=
  let id := s.plat.cpuId
  let denied := s.recordFault .l2 .local e.first e.priv .write id
  if s.inL2Ram e.first then
    let s0 := s.wakePages e.first
    if s.allows (s.l2Perm e.first) id e.priv .write true then s0.putMasked e.quad e.bytes
    else s0.recordFault .l2 .local e.first e.priv .write id
  else match s.region e.first with
    | .l2CacheArea => s
    | .extCfg => s.busWrite .cfgWrite e.first (e.bytes.countP Option.isSome) e.quad e.bytes e.priv id
    | _ =>
      match s.l2Lookup e.first with
      | some l =>
        if s.allows (s.l2Perm e.first) id e.priv .write false then
          (s.l2Merge l (e.quad % 128) e.bytes).setL2 ((s.l2Merge l (e.quad % 128) e.bytes).l2.touch l.set l.way)
        else denied
      | none =>
        if s.mayAllocateL2 e.first then
          if s.allows (s.l2Perm e.first) id e.priv .write false then
            let r := s.l2Allocate .drainFill e.first e.priv
            r.1.l2Merge r.2 (e.quad % 128) e.bytes
          else denied
        else s.finishOut.busWrite .mdmaWrite e.first (e.bytes.countP Option.isSome) e.quad e.bytes e.priv id

/-- `L2Write(a, 64, v, victim)`: an L1D line written back: no check, no allocation, no order update (spec/42_l2.md R322). A
line of memory that has meanwhile become cache has nowhere to go (notes/assumptions/25.md). `ext` is what happens to bytes
that neither L2 RAM nor the L2 cache takes. -/
def State.l2Take (s : State) (v : Victim) (ext : State → State) : State :=
  if s.inL2Ram v.addr then (s.wakePages v.addr).putMasked v.addr v.bytes
  else if s.region v.addr = .l2CacheArea then s
  else match s.l2Lookup v.addr with
    | some l => s.l2Merge l (v.addr % 128) v.bytes
    | none => ext s.finishOut

/-- A written back line, or what is left of it, reaches L2; to external memory it goes as one transaction. -/
def State.l2WriteVictim (s : State) (v : Victim) : State := s.l2Take v fun t => t.extWriteLine v

/-- The bytes of word `i` of a line on its way. -/
def Victim.word (v : Victim) (i : Nat) : Victim := { v with bytes := v.bytes.mapIdx fun j b => if j / 4 = i then b else none }

/-- The line without its word `i`. -/
def Victim.without (v : Victim) (i : Nat) : Victim :=
  { v with bytes := v.bytes.mapIdx fun j b => if j / 4 = i then none else b }

/-- One word of the victim reaches L2; the rest stays on its way, and the transaction of a line that goes to external memory
is the one that ends it (spec/20_memory.md R108, R131; notes/assumptions/11.md, 22.md). -/
def State.victimWord (s : State) (i : Nat) : State :=
  match s.l1d.victim with
  | none => s
  | some v =>
    (s.setL1d { s.l1d with victim := some (v.without i) }).l2Take (v.word i) fun t => t.extPut v.addr (v.word i).bytes

/-- One word of the line that L2 has evicted reaches external memory; the rest stays on its way. -/
def State.outWord (s : State) (i : Nat) : State :=
  match s.l2.out with
  | none => s
  | some v => (s.setL2 { s.l2 with out := some (v.without i) }).extPut v.addr (v.word i).bytes

/-! ### L1D (spec/41_l1d.md) -/

/-- The sets of the L1D cache. -/
def State.l1dSets (s : State) : Nat := setsOf .l1d s.l1dSize

/-- The valid L1D line that holds an address. -/
def State.l1dLookup (s : State) (a : Nat) : Option Line :=
  if s.l1dSets = 0 then none else findLine s.l1d.lines (setOf .l1d s.l1dSets a) (tagOf .l1d s.l1dSets a)

/-- The other way becomes the one to replace next; a frozen cache does not update the bit (spec/41_l1d.md R225, R234). -/
def L1d.touch (c : L1d) (set way : Nat) : L1d :=
  if c.oper then c else { c with lru := lruPut c.lru set (1 - way) }

/-- The victim reaches L2 (spec/41_l1d.md R228). -/
def State.drainVictim (s : State) : State :=
  match s.l1d.victim with
  | none => s
  | some v => (s.setL1d { s.l1d with victim := none }).l2WriteVictim v

/-- The oldest write buffer entry reaches L2; the victim goes first, since write misses wait for it
(spec/41_l1d.md R228, R258). -/
def State.drainOne (s : State) : State :=
  let s0 := s.drainVictim
  match s0.l1d.wbuf with
  | [] => s0
  | e :: t => ((s0.setL1d { s0.l1d with wbuf := t }).l2Write e).endDrain

/-- `n` drains in turn. -/
def State.drain (s : State) : Nat → State
  | 0 => s
  | n + 1 => s.drainOne.drain n

/-- The write buffer and the victim buffer become empty: what a read miss waits for (spec/41_l1d.md R228, R258). -/
def State.drainAll (s : State) : State := s.drainVictim.drain s.drainVictim.l1d.wbuf.length

/-- Bytes at offset `o` of a quad-word, as a mask. -/
def quadMask (o : Nat) (bs : List Byte) : List (Option Byte) :=
  (List.range 16).map fun i => if o ≤ i then bs[i - o]? else none

/-- The later write wins byte by byte (spec/41_l1d.md R259). -/
def mergeMask (old new : List (Option Byte)) : List (Option Byte) :=
  (List.range 16).map fun i => ((new[i]?).join).or ((old[i]?).join)

/-- Two write misses may merge: same quad-word, both in L2 RAM, same privilege (spec/41_l1d.md R259). -/
def State.merges (s : State) (e : WbEntry) (a : Nat) (p : Priv) : Bool :=
  e.quad = a / 16 * 16 && s.inL2Ram e.first && s.inL2Ram a && e.priv = p

/-- A further part of one store continues its entry of the write buffer, if that has not been drained meanwhile: it holds the
byte before (spec/20_memory.md R108, spec/41_l1d.md R258; notes/assumptions/11.md). -/
def WbEntry.continues (e : WbEntry) (a : Nat) (p : Priv) : Bool :=
  e.quad = a / 16 * 16 && a % 16 ≠ 0 && (e.bytes[a % 16 - 1]?.join).isSome && e.priv = p

/-- `WriteBufferEnqueue(a, n, v, priv)`: merged with the immediately preceding write miss where that is allowed, or, for a
further part of one store (`more`), with the entry that it continues, else appended; a full buffer first drains its oldest
entry, and a pending victim goes first (spec/41_l1d.md R228, R258, R259). -/
def State.enqueue (s : State) (a : Nat) (bs : List Byte) (p : Priv) (more : Bool) : State :=
  let s0 := s.drainVictim
  let new : WbEntry := { quad := a / 16 * 16, first := a, bytes := quadMask (a % 16) bs, priv := p }
  match s0.l1d.wbuf.getLast? with
  | some e =>
    if s0.merges e a p || (more && e.continues a p) then
      s0.setL1d { s0.l1d with wbuf := s0.l1d.wbuf.dropLast ++ [{ e with bytes := mergeMask e.bytes new.bytes }] }
    else
      let s1 := if s0.l1d.wbuf.length < 4 then s0 else s0.drainOne
      s1.setL1d { s1.l1d with wbuf := s1.l1d.wbuf ++ [new] }
  | none => s0.setL1d { s0.l1d with wbuf := [new] }

/-- The frame is emptied; a dirty line goes to the victim buffer (spec/41_l1d.md R228). -/
def State.l1dEvict (s : State) (set way : Nat) : State :=
  match lineAt s.l1d.lines set way with
  | some l =>
    s.setL1d { s.l1d with lines := dropLine s.l1d.lines set way
                          victim := if l.dirty then some (l.out .l1d s.l1dSets) else s.l1d.victim }
  | none => s

/-- An L1D line is allocated on a read miss: the way to replace is evicted, a dirty one through the victim buffer, and the
line is filled from L2 with its permission value (spec/41_l1d.md R225, R228; spec/42_l2.md R342). -/
def State.l1dAllocate (s : State) (a : Nat) (perm : BitVec 16) (p : Priv) : State × Line :=
  let set := setOf .l1d s.l1dSets a
  let way := (s.l1d.lru.lookup set).getD 0
  let r := (s.l1dEvict set way).l2Read .loadFill (a / 64 * 64) 64 p
  let l : Line := { set := set, way := way, tag := tagOf .l1d s.l1dSets a, dirty := false, data := r.2, perm := perm }
  (r.1.setL1d ({ r.1.l1d with lines := putLine r.1.l1d.lines l }.touch set way), l)

/-- A read that protection denies: the fault is recorded and the value delivered is unspecified
(spec/46_mpa.md R473, spec/93_implementation_defined.md U6). -/
def State.deniedRead (s : State) (x : Block) (o : Origin) (a n : Nat) (p : Priv) (id : Nat) : State × List Byte :=
  ((s.recordFault x o a p .read id).spend, freeBytes s.free n)

/-- A read miss in L1D allocates a line (spec/41_l1d.md R225, R234). -/
def State.l1dAllocates (s : State) (a : Nat) : Bool := s.cacheable a && !s.l1d.oper && s.l1dSets ≠ 0

/-- A CPU load in L2 RAM or external memory, through the L1D cache (spec/41_l1d.md R225, R229). Every miss is served by
L2, and L1D then checks the permission value that L2 returns (spec/42_l2.md R301, R342); a denied miss allocates no line and
leaves both caches as they are (spec/60_exceptions.md R523; notes/assumptions/18.md). The L2 page of the address is awake then
(`State.loadPiece`). `multi` says that the piece belongs to an access of more than one aligned unit. -/
def State.loadCached (s : State) (a n : Nat) (multi : Bool) : State × List Byte :=
  let p := s.cpu.priv
  let id := s.plat.cpuId
  match s.l1dLookup a with
  | some l =>
    if s.allows l.perm id p .read (s.inL2Ram a) then
      (s.setL1d (s.l1d.touch l.set l.way), s.torn multi .load a (slice l.data (a % 64) n))
    else s.deniedRead .l1d .local a n p id
  | none =>
    let s1 := s.drainAll
    if s1.allows (s1.l2Perm a) id p .read (s1.inL2Ram a) then
      if s1.l1dAllocates a then
        let r := s1.l1dAllocate a (s1.l2Perm a) p
        (r.1, r.1.torn multi .load a (slice r.2.data (a % 64) n))
      else
        let r := s1.l2Read .loadFill a n p
        (r.1, r.1.torn multi .load a r.2)
    else
      (if s1.l1dAllocates a then s1.l2Probe (a / 64 * 64) 64 p else s1.l2Probe a n p).deniedRead .l1d .local a n p id

/-- A CPU load or store in L1P memory changes no memory; whether L1P signals it is unspecified
(spec/40_l1p.md R172, spec/93_implementation_defined.md U1: a free choice). -/
def State.cpuAtL1P (s : State) (a : Nat) (k : Kind) : State :=
  (if Config.freeBool s.free then s.recordFault .l1p .local a s.cpu.priv k s.plat.cpuId else s).spend

/-- A CPU load of `n` bytes inside one quad-word (spec/20_memory.md R114); `multi` says that it belongs to an access of more
than one aligned unit. A sleeping L2 page of the address wakes first (spec/42_l2.md R336). -/
def State.loadPiece (s : State) (a n : Nat) (multi : Bool) : Except Stop (State × List Byte) :=
  match s.region a with
  | .l1dRam =>
    if s.allows (entryOf s.l1d.mppa (s.plat.l1d.page a)) s.plat.cpuId s.cpu.priv .read true then
      .ok (s, s.torn multi .load a (s.mem.readBytes a n))
    else .ok (s.deniedRead .l1d .local a n s.cpu.priv s.plat.cpuId)
  | .l1pRam => .ok (s.cpuAtL1P a .read, freeBytes s.free n)
  | .l2Ram | .external => .ok ((s.wakeForCpu a).loadCached a n multi)
  | .extCfg =>
    if a % 4 = 0 ∧ n = 4 then .ok (s.drainAll.busRead .cfgRead a 4 s.cpu.priv s.plat.cpuId)
    else .error (.refused (.accessWidth a n))
  | .l1pCacheArea | .l1dCacheArea | .l2CacheArea => .error (.fault (.cacheArea a))
  | .intReg => .error (.refused (.accessWidth a n))
  | .intUnlisted => .error (.refused (.unlistedAddress a))

/-- A CPU store in L2 RAM, external memory or external configuration space: a hit is checked and written in L1D, a miss is
queued (spec/41_l1d.md R226, spec/42_l2.md R342). `more` says that it is a further part of one store. The L2 page of the
address is awake then (`State.storePiece`). -/
def State.storeCached (s : State) (a : Nat) (bs : List Byte) (more : Bool) : State :=
  match s.l1dLookup a with
  | some l =>
    if s.allows l.perm s.plat.cpuId s.cpu.priv .write (s.inL2Ram a) then
      s.setL1d ({ s.l1d with lines := putLine s.l1d.lines
                               { l with data := overlay l.data (a % 64) (bs.map some), dirty := true } }.touch l.set l.way)
    else s.recordFault .l1d .local a s.cpu.priv .write s.plat.cpuId
  | none => s.enqueue a bs s.cpu.priv more

/-- One step of a CPU store, of bytes inside one aligned word (spec/20_memory.md R108, R114). A sleeping L2 page of the address
wakes first, even where the bytes then stay in L1D or in the write buffer (spec/42_l2.md R336). -/
def State.storePiece (s : State) (a : Nat) (bs : List Byte) (more : Bool) : Except Stop State :=
  match s.region a with
  | .l1dRam =>
    if s.allows (entryOf s.l1d.mppa (s.plat.l1d.page a)) s.plat.cpuId s.cpu.priv .write true then .ok (s.putBytes a bs)
    else .ok (s.recordFault .l1d .local a s.cpu.priv .write s.plat.cpuId)
  | .l1pRam => .ok (s.cpuAtL1P a .write)
  | .l2Ram | .external => .ok ((s.wakeForCpu a).storeCached a bs more)
  | .extCfg =>
    if a % 4 = 0 ∧ bs.length = 4 then .ok (s.enqueue a bs s.cpu.priv more)
    else .error (.refused (.accessWidth a bs.length))
  | .l1pCacheArea | .l1dCacheArea | .l2CacheArea => .error (.fault (.cacheArea a))
  | .intReg => .error (.refused (.accessWidth a bs.length))
  | .intUnlisted => .error (.refused (.unlistedAddress a))

/-- How many bytes of an access lie in its first quad-word (notes/assumptions/11.md). -/
def firstPiece (a n : Nat) : Nat := min n (16 - a % 16)

/-- The widths of CPU loads and stores (spec/20_memory.md R105: byte, half-word, word, double-word). -/
def cpuWidth (n : Nat) : Bool := n = 1 || n = 2 || n = 4 || n = 8

/-- The access touches a register or external configuration space (spec/20_memory.md R106, R111). -/
def State.touchesRegisters (s : State) (a n : Nat) : Bool :=
  (List.range n).any fun i => match s.region (a + i) with
    | .intReg | .extCfg | .intUnlisted => true
    | .l1pRam | .l1pCacheArea | .l1dRam | .l1dCacheArea | .l2Ram | .l2CacheArea | .external => false

/-- What a CPU access must be, else it stops: of a width a CPU access has, inside the address space, and, where it touches a
register or configuration space, one aligned unit (spec/20_memory.md R103, R105, R106; spec/00_scope.md R6;
spec/93_implementation_defined.md U9, U20). -/
def State.accessStop (s : State) (a n : Nat) : Option Stop :=
  if !cpuWidth n then some (.refused (.noSuchWidth n))
  else if topOfMemory < a + n then some (.fault (.pastTopOfMemory a))
  else if severalSteps a n && s.touchesRegisters a n then some (.refused (.accessWidth a n))
  else none

/-- The access under way, updated. -/
def State.setRest (s : State) (r : Option AccessRest) : State := s.setCpu { s.cpu with rest := r }

/-- One step of a CPU load of `n` bytes at `a`, which has loaded `got` before: its bytes inside the first quad-word are loaded,
and the rest, where it crosses into the next, stays to be loaded; the last step answers. The units that this step's access
read ahead keep the values they had then (spec/20_memory.md R106, R108; spec/41_l1d.md R256; notes/assumptions/11.md). -/
def State.loadNext (s : State) (a n : Nat) (got : List Byte) : Except Stop State :=
  let k := firstPiece a n
  (s.loadPiece a k (severalSteps a k)).map fun r =>
    if k < n then (r.1.setRest (some (.load (a + k) (n - k) (got ++ r.2)))).setReply .none
    else (r.1.setRest none).setReply (.data (got ++ r.2))

/-- A CPU load of `n` bytes at `a`: its first step. -/
def State.loadBytes (s : State) (a n : Nat) : Except Stop State :=
  match s.accessStop a n with
  | some e => .error e
  | none => s.loadNext a n []

/-- One step of a CPU store: its next aligned unit is stored, and the rest stays to be made (spec/20_memory.md R108,
spec/92_eei_decisions.md D27; notes/assumptions/11.md). -/
def State.storeNext (s : State) (a : Nat) (bs : List Byte) (more : Bool) : Except Stop State :=
  let k := unitLen a bs.length
  (s.storePiece a (bs.take k) more).map fun t => t.setRest (if k < bs.length then some (.store (a + k) (bs.drop k)) else none)

/-- A CPU store of bytes at `a`: its first step. -/
def State.storeBytes (s : State) (a : Nat) (bs : List Byte) : Except Stop State :=
  match s.accessStop a bs.length with
  | some e => .error e
  | none => s.storeNext a bs false

/-- The next step of the access under way, if there is one. -/
def State.accessMore (s : State) : Except Stop State :=
  match s.cpu.rest with
  | none => .ok s
  | some (.store a bs) => s.storeNext a bs true
  | some (.load a n got) => s.loadNext a n got

/-- The aligned unit at `a` as L2 holds it now (spec/42_l2.md R300, R301). -/
def State.unitBelow (s : State) (a n : Nat) : Option (List Byte) :=
  if s.inL2Ram a then some (s.mem.readBytes a n) else (s.l2Lookup a).map fun l => slice l.data (a % 128) n

/-- The write buffer and the victim buffer are empty, as a read miss must find them (spec/41_l1d.md R228, R258;
spec/20_memory.md R130 items 1 and 4). -/
def State.buffersEmpty (s : State) : Bool := s.l1d.wbuf.isEmpty && s.l1d.victim.isNone

/-- The oldest entry of the write buffer, when its turn has come: a victim goes first (spec/41_l1d.md R228). -/
def State.oldestEntry (s : State) : Option WbEntry := if s.l1d.victim.isNone then s.l1d.wbuf.head? else none

/-- External memory may be read now for that access: a load finds both buffers empty, and a drain reads the line of the
oldest entry (spec/20_memory.md R130, spec/41_l1d.md R258). -/
def State.mayFill (s : State) (k : AheadKind) (a : Nat) : Bool :=
  match k with
  | .loadFill => s.buffersEmpty
  | .drainFill => s.oldestEntry.any fun e => e.first / 128 = a / 128
  | .fetchFill => true
  | .load | .fetch => false

/-- External memory may be read at `a` now: L2 does not hold the line, no evicted line is on its way out, and the way that the
line is to fill, if L2 allocates, holds no dirty line, which would have to go first (spec/42_l2.md R286). -/
def State.readyToFill (s : State) (a : Nat) : Bool :=
  (s.l2Lookup a).isNone && s.l2.out.isNone && (!s.mayAllocateL2 a || (s.l2Victim a).isNone)

/-- The aligned unit at `a` as a read of that kind sees it now: a load looks in L1D, and past it only when the write
buffer and the victim buffer are empty (spec/41_l1d.md R225, R228, R258); a fetch looks in L1P RAM and L2; what L2 does not
hold comes from external memory, after the line that L2 evicts for it, and is read again if the megamodule writes it meanwhile
(`State.dropFills`). -/
def State.unitNow (s : State) (k : AheadKind) (a n : Nat) : Option (List Byte) :=
  match k, s.region a with
  | .load, .l1dRam => some (s.mem.readBytes a n)
  | .load, .l2Ram | .load, .external =>
    match s.l1dLookup a with
    | some l => some (slice l.data (a % 64) n)
    | none => if s.buffersEmpty then s.unitBelow a n else none
  | .fetch, .l1pRam => some (s.mem.readBytes a n)
  | .fetch, .l2Ram | .fetch, .external => s.unitBelow a n
  | k, .external =>
    if s.mayFill k a && s.readyToFill a then some (s.mem.readBytes a n) else none
  | _, _ => none

/-- The units read ahead, updated. -/
def State.setAhead (s : State) (k : AheadKind) (l : List Ahead) : State :=
  match k with
  | .load | .fetch => s.setCpu { s.cpu with ahead := l }
  | .loadFill | .fetchFill | .drainFill => s.setEmc { s.emc with fills := l }

/-- One step of an access of more than one aligned unit: the unit of `n` bytes at `a` is read, an aligned word, half-word or
byte (spec/20_memory.md R108, spec/92_eei_decisions.md D27; notes/assumptions/11.md). A sleeping L2 page of the unit wakes
(spec/42_l2.md R336). -/
def State.readAhead (s : State) (k : AheadKind) (a n : Nat) : State :=
  if n ∈ [1, 2, 4] ∧ a % n = 0 then
    match s.unitNow k a n with
    | some bs => (s.wakeForCpu a).setAhead k (⟨k, a, bs⟩ :: s.aheadOf k)
    | none => s
  else s

/-- L1D writes a dirty line back on its own, leaving it valid and clean (spec/92_eei_decisions.md D9): its bytes are on their
way as a victim's are, word by word (spec/20_memory.md R108; notes/assumptions/11.md). -/
def State.writebackLine (s : State) (set way : Nat) : State :=
  match lineAt s.l1d.lines set way with
  | some l =>
    if l.dirty then
      let s0 := s.drainVictim
      s0.setL1d { s0.l1d with lines := putLine s0.l1d.lines { l with dirty := false }, victim := some (l.out .l1d s.l1dSets) }
    else s
  | none => s

/-! ### L1P and program fetch (spec/40_l1p.md) -/

/-- The sets of the L1P cache. -/
def State.l1pSets (s : State) : Nat := setsOf .l1p s.l1pSize

/-- The valid L1P line that holds an address. -/
def State.l1pLookup (s : State) (a : Nat) : Option Line :=
  if s.l1pSets = 0 then none else findLine s.l1p.lines (setOf .l1p s.l1pSets a) (tagOf .l1p s.l1pSets a)

/-- An L1P miss: L2 serves the packet, and a cache that is enabled and not frozen keeps the line with its permissions,
whatever the `MAR` says (spec/40_l1p.md R177, R182; spec/42_l2.md R318, R343). -/
def State.l1pFill (s : State) (a : Nat) : State × List Byte :=
  let q := s.l2Read .fetchFill a 32 s.cpu.priv
  let r := (q.1, q.1.tear .fetch a q.2)
  if s.l1pSets ≠ 0 && !s.l1p.oper then
    let l : Line := { set := setOf .l1p s.l1pSets a, way := 0, tag := tagOf .l1p s.l1pSets a, dirty := false, data := r.2
                      perm := s.l2Perm a }
    (r.1.setL1p { r.1.l1p with lines := putLine r.1.l1p.lines l }, r.2)
  else r

/-- The execute check of a fetch (spec/40_l1p.md R206). -/
def State.fetchAllowed (s : State) (perm : BitVec 16) : Bool := !s.plat.hasMp || mayExecute perm s.cpu.priv

/-- A program fetch of the packet that holds `a0` (spec/20_memory.md R103, R114). Every miss is served by L2 and allocates in
L1P, and L1P then checks the permissions that L2 returns (spec/40_l1p.md R177, R206; spec/42_l2.md R300, R343). A sleeping L2
page of the packet wakes first, on a hit too (spec/42_l2.md R336). -/
def State.fetchPacket (s : State) (a0 : Nat) : Except Stop State :=
  let a := a0 / 32 * 32
  if topOfMemory ≤ a then .error (.fault (.pastTopOfMemory a))
  else match s.region a with
  | .l1pRam =>
    if s.fetchAllowed (entryOf s.l1p.mppa (s.plat.l1p.page a)) then
      .ok (s.setReply (.packet (s.tear .fetch a (s.mem.readBytes a 32))))
    else .ok (s.fetchPermissionFault a)
  | .l2Ram | .external =>
    let s0 := s.wakeForCpu a
    match s0.l1pLookup a with
    | some l => if s.fetchAllowed l.perm then .ok (s0.setReply (.packet l.data)) else .ok (s0.fetchPermissionFault a)
    | none =>
      let r := s0.l1pFill a
      if s.fetchAllowed (s.l2Perm a) then .ok (r.1.setReply (.packet r.2)) else .ok (r.1.fetchPermissionFault a)
  | .l1pCacheArea | .l1dCacheArea | .l2CacheArea => .error (.fault (.cacheArea a))
  | .intReg | .intUnlisted | .extCfg | .l1dRam => .error (.refused (.fetchTarget a))

/-- The packet at `a` is one of the three after the one the CPU fetched last (spec/40_l1p.md R193,
spec/70_reset_and_hazards.md R575). -/
def State.mayPrefetch (s : State) (a : Nat) : Bool :=
  match s.cpu.lastFetch with
  | some l => a = l + 32 || a = l + 64 || a = l + 96
  | none => false

/-- A fetch ahead of execution that the CPU drops: it may allocate in L1P and raises no fetch permission fault
(spec/70_reset_and_hazards.md R575). In a region for which the spec describes no fetch (spec/91_not_in_source.md N8) it does
nothing, while a fetch there is refused (DESIGN CHOICE, unsafe: notes/assumptions/19.md). -/
def State.prefetchPacket (s : State) (a0 : Nat) : Except Stop State :=
  let a := a0 / 32 * 32
  if topOfMemory ≤ a then .error (.fault (.pastTopOfMemory a))
  else if !s.mayPrefetch a then .error (.refused (.prefetchTooFar a))
  else match s.region a with
  | .l2Ram | .external =>
    let s0 := s.wakeForCpu a
    .ok (if (s0.l1pLookup a).isSome then s0 else (s0.l1pFill a).1)
  | .intReg | .l1pRam | .l1pCacheArea | .l1dRam | .l1dCacheArea | .l2CacheArea | .extCfg | .intUnlisted => .ok s

/-! ### Room in the L2 cache (spec/42_l2.md R286) -/

/-- L2 must allocate a line for an access of `a` that reaches it. -/
def State.l2Misses (s : State) (a : Nat) : Bool := s.region a = .external && (s.l2Lookup a).isNone && s.mayAllocateL2 a

/-- L2 must allocate a line for a CPU load at `a`: it has missed L1D and found both buffers empty, and will not be denied
(spec/60_exceptions.md R523). -/
def State.loadMisses (s : State) (a : Nat) : Bool :=
  s.buffersEmpty && s.l2Misses a && (s.l1dLookup a).isNone && s.allows (s.l2Perm a) s.plat.cpuId s.cpu.priv .read false

/-- The address for which L2 must allocate a line, if the access under way, or else the oldest entry of the write buffer,
needs one. -/
def State.missOf (s : State) : Option Access → Option Nat
  | none => s.oldestEntry.bind fun e =>
    if s.l2Misses e.first && s.allows (s.l2Perm e.first) s.plat.cpuId e.priv .write false then some e.first else none
  | some (.load a w) => if (s.accessStop a w).isNone && s.loadMisses a then some a else none
  | some .loadRest =>
    match s.cpu.rest with
    | some (.load a _ _) => if s.loadMisses a then some a else none
    | some (.store _ _) | none => none
  | some (.fetch a) => if s.l2Misses (a / 32 * 32) && (s.l1pLookup (a / 32 * 32)).isNone then some (a / 32 * 32) else none
  | some (.prefetch a) =>
    if s.mayPrefetch (a / 32 * 32) && s.l2Misses (a / 32 * 32) && (s.l1pLookup (a / 32 * 32)).isNone then some (a / 32 * 32)
    else none

/-- L2 begins to make room for an access: the CPU has begun it, and makes no other step before it ends
(spec/42_l2.md R286, spec/20_memory.md R131; notes/assumptions/11.md). -/
def State.evictFor (s : State) (x : Option Access) : State :=
  match s.missOf x with
  | none => s
  | some a =>
    let t := s.l2Evict a
    if x.isSome then t.setCpu { t.cpu with issued := x } else t

/-! ### DMA-class accesses (spec/20_memory.md R113) -/

/-- The bytes a DMA-class read of L2 RAM sees: L1D's where it holds the line dirty (snoop-read, spec/42_l2.md R324). -/
def State.snoopRead (s : State) (a n : Nat) : List Byte :=
  match s.l1dLookup a with
  | some l => if l.dirty then slice l.data (a % 64) n else s.mem.readBytes a n
  | none => s.mem.readBytes a n

/-- A line that L1D holds takes the bytes of a DMA-class write, its valid and dirty bits unchanged (snoop-write,
spec/41_l1d.md R248, spec/42_l2.md R323). -/
def State.snoopWrite (s : State) (a : Nat) (bs : List (Option Byte)) : State :=
  match s.l1dLookup a with
  | some l =>
    s.setL1d { s.l1d with lines := putLine s.l1d.lines { l with data := overlay l.data (a % 64) bs } }
  | none => s

/-- `MemRead_as(id, priv, a, n)` inside one 32-byte block; `cfg` says whether the requestor reaches the CFG port, `bad` what
an address it does not serve answers (spec/20_memory.md R113). A victim on its way has reached L2 RAM first (R121, R228). -/
def State.memReadAs (s : State) (id : Nat) (p : Priv) (a n : Nat) (cfg : Bool) (bad : Refusal) :
    Except Stop (State × List Byte) :=
  match s.region a with
  | .l1pRam =>
    if s.allows (entryOf s.l1p.mppa (s.plat.l1p.page a)) id p .read false then .ok (s, s.mem.readBytes a n)
    else .ok (s.deniedRead .l1p .remote a n p id)
  | .l1dRam =>
    if s.allows (entryOf s.l1d.mppa (s.plat.l1d.page a)) id p .read false then .ok (s, s.mem.readBytes a n)
    else .ok (s.deniedRead .l1d .remote a n p id)
  | .l2Ram =>
    let s0 := s.drainVictim.wakePages a
    if s.allows (s.l2Perm a) id p .read false then .ok (s0, s0.snoopRead a n)
    else .ok (s0.deniedRead .l2 .remote a n p id)
  | .extCfg => if cfg then .ok (s.busRead .cfgRead a n p id) else .error (.refused bad)
  | .l1pCacheArea | .l1dCacheArea | .l2CacheArea => .error (.fault (.cacheArea a))
  | .intReg | .intUnlisted | .external => .error (.refused bad)

/-- `MemWrite_as(id, priv, a, n, w)` inside one 32-byte block (spec/20_memory.md R113). -/
def State.memWriteAs (s : State) (id : Nat) (p : Priv) (a : Nat) (bs : List Byte) (cfg : Bool) (bad : Refusal) :
    Except Stop State :=
  match s.region a with
  | .l1pRam =>
    if s.allows (entryOf s.l1p.mppa (s.plat.l1p.page a)) id p .write false then .ok (s.putBytes a bs)
    else .ok (s.recordFault .l1p .remote a p .write id)
  | .l1dRam =>
    if s.allows (entryOf s.l1d.mppa (s.plat.l1d.page a)) id p .write false then .ok (s.putBytes a bs)
    else .ok (s.recordFault .l1d .remote a p .write id)
  | .l2Ram =>
    let s0 := s.drainVictim.wakePages a
    if s.allows (s.l2Perm a) id p .write false then
      .ok ((s0.putBytes a bs).snoopWrite a (s.plat.maskRom a (bs.map some)))
    else .ok (s0.recordFault .l2 .remote a p .write id)
  | .extCfg => if cfg then .ok (s.busWrite .cfgWrite a bs.length a (bs.map some) p id) else .error (.refused bad)
  | .l1pCacheArea | .l1dCacheArea | .l2CacheArea => .error (.fault (.cacheArea a))
  | .intReg | .intUnlisted | .external => .error (.refused bad)

end Sys2Proof.Machine
end

