-- ==== Sys2Proof/Machine/Coherence.lean ====
section
/-!
DEFINITION. Program-initiated coherence operations: what each register starts, the treatment of one line frame, and
completion (spec/42_l2.md R302 to R314, spec/41_l1d.md R237 to R245, spec/40_l1p.md R185 to R189).
-/
namespace Sys2Proof.Machine

/-- What an operation does to a line (spec/41_l1d.md R237). -/
inductive CohAction
  | inv
  | wb
  | wbinv
  deriving DecidableEq, Repr

/-- The action of each register's operation (spec/42_l2.md R302, R304, spec/41_l1d.md R238 to R244). -/
def cohAction : CohReg → CohAction
  | .l1pinv | .l1piwc | .l1dinv | .l1diwc | .l2inv | .l2iwc => .inv
  | .l1dwb | .l1dwwc | .l2wb | .l2wwc => .wb
  | .l1dwbinv | .l1dwiwc | .l2wbinv | .l2wiwc => .wbinv

/-- The controller whose operation slot a register uses (spec/10_state.md R96). -/
def cohBlock : CohReg → Block
  | .l1pinv | .l1piwc => .l1p
  | .l1dinv | .l1dwb | .l1dwbinv | .l1dwiwc | .l1dwwc | .l1diwc => .l1d
  | .l2inv | .l2wb | .l2wbinv | .l2wiwc | .l2wwc | .l2iwc => .l2

/-- A block operation is limited to its range; a global one is not (spec/10_state.md R96). -/
def cohIsBlock : CohReg → Bool
  | .l1piwc | .l1dwiwc | .l1dwwc | .l1diwc | .l2wiwc | .l2wwc | .l2iwc => true
  | .l1pinv | .l1dinv | .l1dwb | .l1dwbinv | .l2inv | .l2wb | .l2wbinv => false

/-- Whether an operation acts on a cache: an L2 operation also acts on L1D, and on L1P when it invalidates
(spec/42_l2.md R302, R304). -/
def cohTouches (r : CohReg) (x : Block) : Bool :=
  match cohBlock r, x with
  | .l1p, .l1p => true
  | .l1d, .l1d => true
  | .l2, .l2 => true
  | .l2, .l1d => true
  | .l2, .l1p => cohAction r ≠ .wb
  | _, _ => false

/-- The operation in progress in a controller's slot. -/
def State.opOf (s : State) : Block → Option CohOp
  | .l1p => s.l1p.op
  | .l1d => s.l1d.op
  | .l2 => s.l2.op

/-- A controller's slot, updated. -/
def State.setOp (s : State) (x : Block) (o : Option CohOp) : State :=
  match x with
  | .l1p => s.setL1p { s.l1p with op := o }
  | .l1d => s.setL1d { s.l1d with op := o }
  | .l2 => s.setL2 { s.l2 with op := o }

/-- The lines of a cache. -/
def State.linesOf (s : State) : Block → List Line
  | .l1p => s.l1p.lines
  | .l1d => s.l1d.lines
  | .l2 => s.l2.lines

/-- The sets of a cache at its present size. -/
def State.setsIn (s : State) : Block → Nat
  | .l1p => s.l1pSets
  | .l1d => s.l1dSets
  | .l2 => s.l2Sets

/-- Whether an operation acts on a line: every line for a global one, the lines that overlap the range for a block one
(spec/42_l2.md R308). -/
def State.inRange (s : State) (o : CohOp) (x : Block) (l : Line) : Bool :=
  !cohIsBlock o.reg || overlaps x (l.addr x (s.setsIn x)) o.base o.words

/-- The frames of one cache an operation will treat. -/
def State.framesOf (s : State) (o : CohOp) (x : Block) : List Frame :=
  if cohTouches o.reg x then
    ((s.linesOf x).filter fun l => s.inRange o x l).map fun l => ⟨x, l.set, l.way⟩
  else []

/-- All frames of the caches an operation acts on. -/
def State.frames (s : State) (o : CohOp) : List Frame := s.framesOf o .l1p ++ s.framesOf o .l1d ++ s.framesOf o .l2

/-- An L1P line is invalidated (spec/40_l1p.md R185, R187). -/
def State.treatL1p (s : State) (f : Frame) : State := s.setL1p { s.l1p with lines := dropLine s.l1p.lines f.set f.way }

/-- `Inv`, `Wb`, `WbInv` of an L1D line, with nothing else on its way out of L1D (spec/41_l1d.md R237). -/
def State.l1dLineOp (s : State) (c : CohAction) (l : Line) : State :=
  let v := l.out .l1d s.l1dSets
  let kept := s.setL1d { s.l1d with lines := putLine s.l1d.lines { l with dirty := false } }
  let gone := s.setL1d { s.l1d with lines := dropLine s.l1d.lines l.set l.way }
  match c with
  | .inv => gone
  | .wb => if l.dirty then kept.l2WriteVictim v else s
  | .wbinv => if l.dirty then gone.l2WriteVictim v else gone

/-- The treatment of an L1D line: one that is written back goes after a victim that is on its way, which may be an older copy
of it (spec/41_l1d.md R228, R237; spec/20_memory.md R121, R123). -/
def State.treatL1d (s : State) (c : CohAction) (l : Line) : State :=
  (if c ≠ .inv && l.dirty then s.drainVictim else s).l1dLineOp c l

/-- The L2 counterparts (spec/42_l2.md R309 to R314). -/
def State.treatL2 (s : State) (c : CohAction) (l : Line) : State :=
  let v := l.out .l2 s.l2Sets
  let kept := s.setL2 { s.l2 with lines := putLine s.l2.lines { l with dirty := false } }
  let gone := s.setL2 { s.l2 with lines := dropLine s.l2.lines l.set l.way }
  match c with
  | .inv => gone
  | .wb => if l.dirty then kept.finishOut.extWriteLine v else s
  | .wbinv => if l.dirty then gone.finishOut.extWriteLine v else gone

/-- One line frame of an operation is treated, if the line in it is still one the operation acts on. -/
def State.treat (s : State) (o : CohOp) (f : Frame) : State :=
  match lineAt (s.linesOf f.cache) f.set f.way with
  | some l =>
    if s.inRange o f.cache l then
      match f.cache with
      | .l1p => s.treatL1p f
      | .l1d => s.treatL1d (cohAction o.reg) l
      | .l2 => s.treatL2 (cohAction o.reg) l
    else s
  | none => s

/-- Whether an operation acts on the line of a cache that is on its way out. -/
def covers (o : CohOp) (x : Block) (v : Option Victim) : Bool :=
  cohTouches o.reg x && v.any fun v => !cohIsBlock o.reg || overlaps x v.addr o.base o.words

/-- An L2 operation treats the L2 line that holds an address, if there is one. -/
def State.treatBelow (s : State) (o : CohOp) (a : Nat) : State :=
  match s.l2Lookup a with
  | some l => if cohTouches o.reg .l2 then s.treat o ⟨.l2, l.set, l.way⟩ else s
  | none => s

/-- What an operation waits for before it goes on to the L2 lines and before it completes: a line it acts on and that left its
cache meanwhile has arrived, and of an L2 operation the L2 line that a victim reached has been treated
(spec/42_l2.md R302, R308; spec/20_memory.md R124, R132; notes/assumptions/12.md). -/
def State.settle (s : State) (o : CohOp) : State :=
  let s0 := match s.l1d.victim with
    | some v => if covers o .l1d (some v) then s.drainVictim.treatBelow o v.addr else s
    | none => s
  if covers o .l2 s0.l2.out then s0.finishOut else s0

/-- The L2 frames join the list of an operation that has no L1D frame left: those whose line is valid then
(spec/42_l2.md R302, R309 to R314). -/
def State.listL2 (s : State) (x : Block) (o : CohOp) : State :=
  let s0 := s.settle o
  s0.setOp x (some { o with todo := o.todo ++ s0.framesOf o .l2, l2Listed := true })

/-- One step of a coherence engine: entry `i` of the list is treated; past the end of the list, the L2 frames join it once no
L1D frame is left, and then an empty list completes the operation (spec/92_eei_decisions.md D4, spec/42_l2.md R302). -/
def State.cohStep (s : State) (x : Block) (i : Nat) : State :=
  match s.opOf x with
  | none => s
  | some o =>
    match o.todo[i]? with
    | some f => (s.setOp x (some { o with todo := o.todo.eraseIdx i })).treat o f
    | none =>
      if o.l2Listed then (if o.todo.isEmpty then (s.settle o).setOp x none else s)
      else if o.todo.all fun g => g.cache ≠ .l1d then s.listL2 x o
      else s

/-- A coherence engine passes over entry `i` of its list, if an access reached the line of that frame while the operation
ran: the line is left as it is (spec/41_l1d.md R245, spec/70_reset_and_hazards.md R572, R573). -/
def State.cohSkip (s : State) (x : Block) (i : Nat) : State :=
  match s.opOf x with
  | none => s
  | some o =>
    match o.todo[i]? with
    | none => s
    | some f => if o.loose.contains f then s.setOp x (some { o with todo := o.todo.eraseIdx i }) else s

/-- A coherence engine treats a frame that is not due: a line that was allocated while the operation runs may or may not
survive it (spec/40_l1p.md R185, spec/70_reset_and_hazards.md R572). L2 lines wait for the L1D lines (spec/42_l2.md R302). -/
def State.cohExtra (s : State) (x : Block) (f : Frame) : State :=
  match s.opOf x with
  | none => s
  | some o => if cohTouches o.reg f.cache && (f.cache ≠ .l2 || o.l2Listed) then s.treat o f else s

/-- Whether the line of a frame was reached since state `old`: it was allocated, or, under a block operation, an access of
the bytes `acc` (first address and length) overlaps it (spec/41_l1d.md R245, spec/70_reset_and_hazards.md R572, R573). An L2
line that was allocated before the L2 frames are listed is listed with them and treated (spec/42_l2.md R310). -/
def State.reached (s old : State) (o : CohOp) (acc : Nat × Nat) (f : Frame) : Bool :=
  match lineAt (s.linesOf f.cache) f.set f.way with
  | none => false
  | some l =>
    let a := l.addr f.cache (s.setsIn f.cache)
    ((f.cache ≠ .l2 || o.l2Listed) && decide ((lineAt (old.linesOf f.cache) f.set f.way).map Line.tag ≠ some l.tag)) ||
      (cohIsBlock o.reg && decide (a < acc.1 + acc.2 ∧ acc.1 < a + lineSize f.cache))

/-- The operation in a slot notes which of the frames it acts on an access reached. -/
def State.loosenOp (s old : State) (acc : Nat × Nat) (x : Block) : State :=
  match s.opOf x with
  | none => s
  | some o => s.setOp x (some { o with loose := (s.frames o).filter fun f => o.loose.contains f || s.reached old o acc f })

/-- The operations in progress note which of their frames an access since state `old` reached. -/
def State.loosen (old s : State) (acc : Nat × Nat) : State :=
  ((s.loosenOp old acc .l1p).loosenOp old acc .l1d).loosenOp old acc .l2

/-- The frames of a list are treated in turn. -/
def State.treatAll (s : State) (o : CohOp) (fs : List Frame) : State := fs.foldl (fun t f => t.treat o f) s

/-- The L2 frames are treated, if that is still to come. -/
def State.treatL2Frames (s : State) (o : CohOp) : State :=
  if o.l2Listed then s else (s.settle o).treatAll o ((s.settle o).framesOf o .l2)

/-- The rest of the operation in a slot is carried out. -/
def State.finishOp (s : State) (x : Block) : State :=
  match s.opOf x with
  | none => s
  | some o => (((s.treatAll o o.todo).treatL2Frames o).settle o).setOp x none

/-- What a write to a coherence register waits for: every operation in progress completes (spec/42_l2.md R306). -/
def State.finishOps (s : State) : State := ((s.finishOp .l1p).finishOp .l1d).finishOp .l2

/-- An operation starts: its slot holds it, with the frames of L1P and L1D that are valid now. A victim on its way reaches L2
first, and a line that L2 has evicted external memory (spec/41_l1d.md R228, spec/42_l2.md R286). -/
def State.startOp (s : State) (r : CohReg) (base words : Nat) : State :=
  let s0 := s.drainVictim.finishOut
  let o : CohOp := { reg := r, base := base, words := words, priv := s.cpu.priv, todo := [], loose := []
                     l2Listed := !cohTouches r .l2 }
  s0.setOp (cohBlock r) (some { o with todo := s0.framesOf o .l1p ++ s0.framesOf o .l1d })

/-- A write of `v` to a global operation register: bit 0 starts the operation (spec/30_encoding.md R157). -/
def State.writeGlobal (s : State) (r : CohReg) (v : Word) : State :=
  if bit v 0 then s.finishOps.startOp r 0 0 else s.finishOps

/-- A read of a global operation register: bit 0 is 1 while the operation runs. -/
def State.readGlobal (s : State) (r : CohReg) : Word :=
  match s.opOf (cohBlock r) with
  | some o => bitAt 0 (o.reg = r)
  | none => 0#32

/-- The base address register of a block operation. -/
def State.barOf (s : State) : CohReg → Bar
  | .l1piwc => s.l1p.ibar
  | .l1dwiwc => s.l1d.wibar
  | .l1dwwc => s.l1d.wbar
  | .l1diwc => s.l1d.ibar
  | .l2wiwc => s.l2.wibar
  | .l2wwc => s.l2.wbar
  | .l2iwc => s.l2.ibar
  | .l1pinv | .l1dinv | .l1dwb | .l1dwbinv | .l2inv | .l2wb | .l2wbinv => Bar.reset

/-- The base address register of a block operation, updated. -/
def State.setBar (s : State) (r : CohReg) (b : Bar) : State :=
  match r with
  | .l1piwc => s.setL1p { s.l1p with ibar := b }
  | .l1dwiwc => s.setL1d { s.l1d with wibar := b }
  | .l1dwwc => s.setL1d { s.l1d with wbar := b }
  | .l1diwc => s.setL1d { s.l1d with ibar := b }
  | .l2wiwc => s.setL2 { s.l2 with wibar := b }
  | .l2wwc => s.setL2 { s.l2 with wbar := b }
  | .l2iwc => s.setL2 { s.l2 with ibar := b }
  | .l1pinv | .l1dinv | .l1dwb | .l1dwbinv | .l2inv | .l2wb | .l2wbinv => s

/-- A write to a base address register: it waits for the operation in progress (spec/42_l2.md R305, R306). -/
def State.writeBar (s : State) (r : CohReg) (v : Word) : State := s.finishOps.setBar r { value := v, fresh := true }

/-- A base that does not let the range pass the top of memory. -/
def clampBase (b words : Nat) : Nat := min b (topOfMemory - 4 * words)

/-- The word count a write asks for; the L2 registers take a count above FFE0h as 0 (spec/42_l2.md R308, R312). -/
def blockWords (r : CohReg) (v : Word) : Nat :=
  let n := field v 0 16
  if cohBlock r = .l2 ∧ 0xFFE0 < n then 0 else n

/-- The start of a block operation over the range its base register names. A base register that was not rewritten since its
last use names an unspecified range: a free value (spec/42_l2.md R307, notes/assumptions/17.md). A range past FFFF FFFFh is
outside the model (spec/93_implementation_defined.md U20). -/
def State.startBlock (s : State) (r : CohReg) (n : Nat) : Except Stop State :=
  let b := s.barOf r
  if b.fresh then
    if topOfMemory < b.value.toNat + 4 * n then .error (.fault (.pastTopOfMemory b.value.toNat))
    else .ok ((s.setBar r { b with fresh := false }).startOp r b.value.toNat n)
  else .ok (s.spend.startOp r (clampBase (Config.freeWord s.free).toNat n) n)

/-- A write to a word count register: it waits for the operation in progress, and a non-zero count starts the operation
(spec/42_l2.md R305, R306, R308). -/
def State.writeCount (s : State) (r : CohReg) (v : Word) : Except Stop State :=
  if blockWords r v = 0 then .ok s.finishOps else s.finishOps.startBlock r (blockWords r v)

/-- A remaining word count: any non-zero value that a 16-bit field holds (spec/40_l1p.md R188). -/
def remaining (stamp words : Nat) : Word :=
  let n := field (Config.freeWord stamp) 0 16
  BitVec.ofNat 32 (if n = 0 then words else n)

/-- A read of a word count register: 0 when its operation does not run, else an unspecified non-zero count
(spec/42_l2.md R308, spec/92_eei_decisions.md D4). -/
def State.readCount (s : State) (r : CohReg) : Host.Outcome State Fault Refusal :=
  match s.opOf (cohBlock r) with
  | some o => if o.reg = r then s.spend.answer (remaining s.free o.words) else s.answer 0#32
  | none => s.answer 0#32

/-- A read of a base address register: an unspecified value (spec/93_implementation_defined.md U5). -/
def State.readBar (s : State) : Host.Outcome State Fault Refusal := s.spend.answer (Config.freeWord s.free)

/-! ### Mode changes (spec/40_l1p.md R179, spec/41_l1d.md R231, spec/42_l2.md R296) -/

/-- The larger of two cache sizes: what a mode change makes unspecified (spec/93_implementation_defined.md U4). -/
def largerSize (a b : Nat) : Nat := if a ≤ b then b else a

/-- L1P, L1D or L2 enters or leaves the power-down of a cache that is not enabled, as its mode now says
(spec/47_pdc_misc.md R501 (c), spec/40_l1p.md R200). -/
def State.setAsleep (s : State) : Block → State
  | .l1p => s.setPdc { s.pdc with l1pAsleep := s.l1pDown }
  | .l1d => s.setPdc { s.pdc with l1dAsleep := s.l1dDown }
  | .l2 => s.setPdc { s.pdc with l2Asleep := s.l2Down }

/-- A write to `L1PCFG.L1PMODE` (spec/40_l1p.md R179). -/
def State.setL1pMode (s : State) (m : BitVec 3) : State :=
  ((s.setL1p { s.l1p with mode := m, lines := [] }).setAsleep .l1p).forget
    (s.plat.l1p.cacheSpan (largerSize s.l1pSize (s.plat.l1p.cacheSize m)))

/-- Every dirty L1D line written back, every line invalid (spec/41_l1d.md R231). -/
def State.flushL1d (s : State) : State :=
  s.l1d.lines.foldl (fun t l => t.treatL1d .wbinv l) s.drainVictim

/-- Every dirty L2 line written out, every line invalid (spec/42_l2.md R296). -/
def State.flushL2 (s : State) : State :=
  s.l2.lines.foldl (fun t l => t.treatL2 .wbinv l) s

/-- A write to `L1DCFG.L1DMODE` (spec/41_l1d.md R231). -/
def State.setL1dMode (s : State) (m : BitVec 3) : State :=
  let s1 := s.flushL1d
  ((s1.setL1d { s1.l1d with mode := m, lines := [] }).setAsleep .l1d).forget
    (s.plat.l1d.cacheSpan (largerSize s.l1dSize (s.plat.l1d.cacheSize m)))

/-- A write to `L2CFG.L2MODE` (spec/42_l2.md R296). The victim on its way reaches L2 in the old mode, and a
line that L2 has evicted external memory. -/
def State.setL2Mode (s : State) (m : BitVec 3) : State :=
  let s0 := s.drainVictim.finishOut
  let s1 := s0.flushL2
  (((s1.setL2 { s1.l2 with mode := m, lines := [] }).setAsleep .l2).forget (s.plat.l2.cacheSpan s.l2Size)).forget
    (s.plat.l2.cacheSpan (s.plat.l2.cacheSize m))

end Sys2Proof.Machine
end

