-- ==== Sys2Proof/Machine/Engines.lean ====
section
/-!
DEFINITION. The IDMA engines (spec/43_idma.md), the arbiter (spec/44_bwm.md), power-down (spec/47_pdc_misc.md) and the two
resets (spec/70_reset_and_hazards.md).
-/
namespace Sys2Proof.Machine

/-! ### IDMA -/

/-- A channel. -/
def State.chan (s : State) (c : Fin 2) : Chan := if c = 0 then s.idma0 else s.idma1

/-- A channel, updated. -/
def State.setChan (s : State) (c : Fin 2) (x : Chan) : State := if c = 0 then s.setIdma0 x else s.setIdma1 x

/-- `IDMAc_STAT`: PEND, ACTV (spec/43_idma.md R352, R362). -/
def Chan.status (x : Chan) : Word := bitAt 1 x.pending.isSome ||| bitAt 0 x.active.isSome

/-- The next transfer becomes active (spec/43_idma.md R359, R360). -/
def Chan.promote (x : Chan) : Chan := { x with active := x.pending, pending := none }

/-- `complete(c)` (spec/43_idma.md R360). -/
def State.completeIdma (s : State) (c : Fin 2) (t : Xfer) : State :=
  let s1 := if t.int then s.raise (13 + c.val) else s
  s1.setChan c (s1.chan c).promote

/-- The parameter set captured by a write of the count register (spec/43_idma.md R353, R357, R364). -/
def State.captured (s : State) (x : Chan) (count : Nat) (fill int : Bool) (pri : BitVec 3) : Xfer :=
  { mask := x.mask, src := x.source, dst := x.dest, count := count, fill := fill, int := int, pri := pri
    priv := s.cpu.priv, id := s.plat.cpuId, pos := 0 }

/-- A submission: the transfer becomes active, or pending; a third outstanding one is refused (spec/43_idma.md R357, R364;
spec/93_implementation_defined.md U11). -/
def Chan.submit (x : Chan) (c : Fin 2) (t : Xfer) : Except Stop Chan :=
  match x.active, x.pending with
  | none, _ => .ok { x with active := some t, stage := .none }
  | some _, none => .ok { x with pending := some t, stage := .none }
  | some _, some _ => .error (.refused (.idmaQueueFull c))

/-- Whether a write of a count register submits its transfer: it does when the parameter registers were rewritten in order
since the last submission, and the spec does not say whether it does otherwise, a free choice (spec/43_idma.md R357,
spec/93_implementation_defined.md U12, notes/assumptions/16.md). -/
def State.triggers (s : State) (x : Chan) : Bool := x.stage = .dest || Config.freeBool s.free

/-- A write of a count register: it stores the fields and submits the transfer (spec/43_idma.md R357, R364).
One free value is set aside for the choice, whether it is needed or not. -/
def State.writeIdmaCount (s : State) (c : Fin 2) (stored : Word) (t : Xfer) : Except Stop State :=
  let x := { s.chan c with count := stored }
  if s.triggers x then (x.submit c t).map fun y => s.spend.setChan c y else .ok (s.spend.setChan c x)

/-- The address lies in a memory local to the megamodule (spec/43_idma.md R356, R363). -/
def State.isLocal (s : State) (a : Nat) : Bool := s.plat.l1p.has a || s.plat.l1d.has a || s.plat.l2.inPort0 a || s.plat.l2.inPort1 a

/-- What an address a transfer may not use answers (spec/93_implementation_defined.md U10, U15). -/
def idmaBad (c : Fin 2) (a : Nat) : Refusal := .idmaAddress c a

/-- The progress of the active transfer of a channel. -/
def State.setPos (s : State) (c : Fin 2) (t : Xfer) (n : Nat) : State :=
  s.setChan c { s.chan c with active := some { t with pos := n } }

/-- One word of a transfer is read at `src` and written at `dst` (spec/43_idma.md R358, R365). -/
def State.moveWord (s : State) (c : Fin 2) (t : Xfer) (src dst : Nat) (cfg : Bool) : Except Stop State :=
  (s.memReadAs t.id t.priv src 4 cfg (idmaBad c src)).bind fun r =>
    r.1.memWriteAs t.id t.priv dst r.2 cfg (idmaBad c dst)

/-- The number of words of a channel 0 transfer (spec/43_idma.md R357). -/
def Xfer.words0 (t : Xfer) : Nat := 32 * (t.count + 1)

/-- One end of a channel 0 transfer lies in configuration space and the other in a local memory (spec/43_idma.md R356). -/
def State.idma0Ends (s : State) (src dst : Nat) : Bool :=
  (s.inCfg src && s.isLocal dst) || (s.isLocal src && s.inCfg dst)

/-- One step of the channel 0 engine: the parameter error, one word of the transfer, or its completion
(spec/43_idma.md R355, R356, R358, R359). -/
def State.stepIdma0 (s : State) (t : Xfer) : Except Stop State :=
  let src := t.src.toNat
  let dst := t.dst.toNat
  if s.inCfg src && s.inCfg dst then .ok ((s.raise 97).setChan 0 ((s.raise 97).chan 0).promote)
  else if !s.idma0Ends src dst then .error (.refused (idmaBad 0 src))
  else if topOfMemory < src + 4 * t.words0 then .error (.fault (.pastTopOfMemory src))
  else if topOfMemory < dst + 4 * t.words0 then .error (.fault (.pastTopOfMemory dst))
  else if t.words0 ≤ t.pos then .ok (s.completeIdma 0 t)
  else if bit t.mask (t.pos % 32) then .ok (s.setPos 0 t (t.pos + 1))
  else (s.setPos 0 t (t.pos + 1)).moveWord 0 t (src + 4 * t.pos) (dst + 4 * t.pos) true

/-- An address as channel 1 uses it: bits 1:0 cleared (spec/43_idma.md R363). -/
def wordAddress (v : Word) : Nat := v.toNat / 4 * 4

/-- One step of the channel 1 engine: one word of the copy or fill, or the completion (spec/43_idma.md R363, R365, R366). -/
def State.stepIdma1 (s : State) (t : Xfer) : Except Stop State :=
  let src := wordAddress t.src
  let dst := wordAddress t.dst
  if t.count % 4 ≠ 0 then .error (.refused (.idmaCount t.count))
  else if t.count / 4 ≤ t.pos then .ok (s.completeIdma 1 t)
  else if !t.fill && !s.isLocal src then .error (.refused (idmaBad 1 src))
  else if !s.isLocal dst then .error (.refused (idmaBad 1 dst))
  else if !t.fill && topOfMemory < src + t.count then .error (.fault (.pastTopOfMemory src))
  else if topOfMemory < dst + t.count then .error (.fault (.pastTopOfMemory dst))
  else if t.fill then
    (s.setPos 1 t (t.pos + 1)).memWriteAs t.id t.priv (dst + 4 * t.pos) (bytesOf s.plat.endian t.src.toNat 4) false
      (idmaBad 1 dst)
  else (s.setPos 1 t (t.pos + 1)).moveWord 1 t (src + 4 * t.pos) (dst + 4 * t.pos) false

/-- One step of an IDMA channel. While the megamodule is down each word that moves is an access of its own, for which the
controllers wake and after which they are down again, so that the sleep flags stay set from step to step of a transfer
(DESIGN CHOICE, spec/41_l1d.md R262 and spec/47_pdc_misc.md R503 do not say when inside a transfer: notes/assumptions/20.md). -/
def State.stepIdma (s : State) (c : Fin 2) : Except Stop State :=
  match (s.chan c).active with
  | none => .ok s
  | some t => if c = 0 then s.stepIdma0 t else s.stepIdma1 t

/-! ### Slave DMA (spec/20_memory.md R108, R112) -/

/-- One step of a slave DMA transaction: its next aligned unit, at most one word, is read or written, and the
transaction goes on if bytes are left. A read that is complete answers all its bytes. The master of a denied access sees
no error status: a read answers free bytes and a write nothing, since the source describes none (spec/60_exceptions.md
R523; DESIGN CHOICE, notes/assumptions/24.md). -/
def State.sdmaNext (s : State) (b : Burst) : Except Stop (State × Option Burst) :=
  match b.rest with
  | .read left got =>
    let k := unitLen b.addr left
    (s.memReadAs b.id b.priv b.addr k false (.sdmaTarget b.addr)).map fun r =>
      if k < left then (r.1, some { b with addr := b.addr + k, rest := .read (left - k) (got ++ r.2) })
      else (r.1.setReply (.data (got ++ r.2)), none)
  | .write bs =>
    let k := unitLen b.addr bs.length
    (s.memWriteAs b.id b.priv b.addr (bs.take k) false (.sdmaTarget b.addr)).map fun t =>
      (t, if k < bs.length then some { b with addr := b.addr + k, rest := .write (bs.drop k) } else none)

/-- A slave DMA transaction of `n` bytes stops if its ID is none of the system's (spec/00_scope.md R5, `ID_WIDTH`) or if it
passes FFFF FFFFh (spec/93_implementation_defined.md U20). -/
def State.sdmaStop (s : State) (id a n : Nat) : Option Stop :=
  if 2 ^ s.plat.idWidth ≤ id then some (.refused (.noSuchId id))
  else if topOfMemory < a + n then some (.fault (.pastTopOfMemory a))
  else none

/-- The first step of a transaction: what is left of it joins the transactions under way. -/
def State.sdmaStart (s : State) (b : Burst) : Except Stop State :=
  (s.sdmaNext b).map fun r => r.1.setEmc { r.1.emc with bursts := r.1.emc.bursts ++ r.2.toList }

/-- `SdmaRead(id, priv, a, n)`: no check is made and nothing read for 0 bytes. -/
def State.sdmaRead (s : State) (id : Nat) (p : Priv) (a n : Nat) : Except Stop State :=
  match s.sdmaStop id a n with
  | some e => .error e
  | none => if n = 0 then .ok (s.setReply (.data [])) else s.sdmaStart ⟨id, p, a, .read n []⟩

/-- `SdmaWrite(id, priv, a, n, w)`. -/
def State.sdmaWrite (s : State) (id : Nat) (p : Priv) (a : Nat) (bs : List Byte) : Except Stop State :=
  match s.sdmaStop id a bs.length with
  | some e => .error e
  | none => if bs = [] then .ok s else s.sdmaStart ⟨id, p, a, .write bs⟩

/-- The next step of transaction `i` of those under way, in whatever order the agenda picks them. While the megamodule is down
each unit is an access of its own, for which the controllers wake and after which they are down again, so that the sleep
flags stay set from step to step of a transaction (DESIGN CHOICE, spec/41_l1d.md R262 and spec/47_pdc_misc.md R503 do not say
when inside a transaction: notes/assumptions/20.md). -/
def State.sdmaMore (s : State) (i : Nat) : Except Stop State :=
  match s.emc.bursts[i]? with
  | none => .ok s
  | some b => (s.sdmaNext b).map fun r =>
    r.1.setEmc { r.1.emc with bursts := r.1.emc.bursts.take i ++ r.2.toList ++ r.1.emc.bursts.drop (i + 1) }

/-! ### Bandwidth management (spec/44_bwm.md R393 to R396) -/

/-- The requestor class of a request: the index of its counter. -/
def Request.class : Request → Fin 4
  | .cpu => 0
  | .idma0 | .idma1 => 1
  | .sdma _ => 2
  | .ucGlobal | .ucBlock => 3

/-- The index of a resource's counters. -/
def Resource.index : Resource → Fin 4
  | .l1d => 0
  | .l2 => 1
  | .emc => 2
  | .l1p => 3

/-- The register that governs a request at a resource (spec/44_bwm.md R396): `CPUARBD` the CPU at L1P too. There is none for
another requestor at L1P (`State.waitOf`) and none for coherence at the EMC. Coherence there counts as `MAXWAIT` 0 and is
never promoted (DESIGN CHOICE, unsafe: notes/assumptions/28.md). -/
def Bwm.arbReg (b : Bwm) (x : Resource) (q : Request) : Word :=
  match x, q.class with
  | .l1d, 0 => b.cpuarbd
  | .l2, 0 => b.cpuarbu
  | .emc, 0 => b.cpuarbe
  | .l1d, 1 => b.idmaarbd
  | .l2, 1 => b.idmaarbu
  | .emc, 1 => b.idmaarbe
  | .l1d, 2 => b.sdmaarbd
  | .l2, 2 => b.sdmaarbu
  | .emc, 2 => b.sdmaarbe
  | .l1d, 3 => b.ucarbd
  | .l2, 3 => b.ucarbu
  | .emc, 3 => 0#32
  | .l1p, 0 => b.cpuarbd
  | .l1p, 1 => 0#32
  | .l1p, 2 => 0#32
  | .l1p, 3 => 0#32

/-- The index of `cnt[X][q]` for a requestor class. -/
def cntIndex (x : Resource) (c : Fin 4) : Nat := 4 * x.index.val + c.val

/-- `cnt[X][q]`. -/
def Bwm.count (b : Bwm) (x : Resource) (c : Fin 4) : Nat := (b.cnt[cntIndex x c]?).getD 0

/-- The priority a request declares: -1 for what is fixed as the highest, 8 for what is always the lowest
(spec/44_bwm.md R392, R393). -/
def State.declaredPriority (s : State) (x : Resource) (q : Request) : Int :=
  match q with
  | .cpu => field (s.bwm.arbReg x .cpu) 16 3
  | .idma0 => -1
  | .idma1 => match s.idma1.active with
    | some t => t.pri.toNat
    | none => field s.idma1.count 29 3
  | .sdma p => p.val
  | .ucGlobal => -1
  | .ucBlock => 8

/-- The wait after which a request is promoted (spec/44_bwm.md R394, R395). A reserved `MAXWAIT` is some legal wait, one free
value for each arbitration register and cycle, so that requests of one class share it and those of two classes do not
(DESIGN CHOICE, notes/assumptions/28.md). At L1P a requestor other than the CPU has a fixed management that the source does
not describe: some legal wait (spec/44_bwm.md R396, spec/91_not_in_source.md N46). -/
def State.waitOf (s : State) (x : Resource) (q : Request) : Nat :=
  if x = .l1p ∧ q.class ≠ 0 then freeWait (s.free + q.class.val) else maxWait (s.bwm.arbReg x q) (s.free + q.class.val)

/-- `eff[q]`: promoted to -1 when the counter has reached a non-zero MAXWAIT (spec/44_bwm.md R394). -/
def State.effectivePriority (s : State) (x : Resource) (q : Request) : Int :=
  let w := s.waitOf x q
  if w ≠ 0 ∧ w ≤ s.bwm.count x q.class then -1 else s.declaredPriority x q

/-- The request with the numerically lowest effective priority; of equal ones the scheduler's first
(spec/44_bwm.md R394, spec/91_not_in_source.md N45). -/
def State.winner (s : State) (x : Resource) : List Request → Option Request
  | [] => none
  | q :: t =>
    match s.winner x t with
    | none => some q
    | some r => if s.effectivePriority x q ≤ s.effectivePriority x r then some q else some r

/-- One counter of the arbiter. -/
def Bwm.setCount (b : Bwm) (x : Resource) (c : Fin 4) (n : Nat) : Bwm :=
  { b with cnt := b.cnt.setIfInBounds (cntIndex x c) n }

/-- The requestor classes. -/
def classes : List (Fin 4) := [0, 1, 2, 3]

/-- One arbitration cycle: the winner's counter is cleared, every other pending class's counter rises
(spec/44_bwm.md R394). A counter is its class's: it rises once however many requests of the class wait, and is cleared when
any of them wins, though others of the class wait on (DEDUCED, notes/assumptions/28.md). -/
def State.arbitrate (s : State) (x : Resource) (qs : List Request) : State :=
  match s.winner x qs with
  | none => s
  | some w =>
    let losers := classes.filter fun c => c ≠ w.class && qs.any fun q => q.class = c
    let b := losers.foldl (fun b c => b.setCount x c (b.count x c + 1)) s.bwm
    (s.setBwm (b.setCount x w.class 0)).setFree (s.free + 4)

/-! ### Power-down (spec/47_pdc_misc.md R500 to R503) -/

/-- The CPU enters or leaves the `SPLOOP` buffer: L1P memory powers down meanwhile (spec/47_pdc_misc.md R501 (a)). -/
def State.setSploop (s : State) (b : Bool) : State := (s.setPdc { s.pdc with sploop := b }).setAsleep .l1p

/-- The CPU enters the idle state; with `MEGPD` the whole megamodule powers down (spec/47_pdc_misc.md R503). -/
def State.enterIdle (s : State) : State :=
  if s.pdc.megpd then (s.setCpu { s.cpu with idle := true, running := false }).setPower true
  else s.setCpu { s.cpu with idle := true }

/-! ### Reset (spec/70_reset_and_hazards.md R560, R561) -/

/-- Global reset: every field at its reset value. RAM contents become unspecified, ROM, external memory and the platform's
coming inputs stay (R560, R566; notes/assumptions/27.md). Slave DMA transactions and fills under way are cut off, on which
the spec says nothing (DESIGN CHOICE, unsafe: notes/assumptions/24.md). -/
def State.globalReset (s : State) : State :=
  let p := s.plat
  let s1 := (((State.resetOf p).setMem s.mem).setFree s.free).setAgenda s.agenda
  let s2 := s1.setEmc { s1.emc with replies := s.emc.replies }
  (((s2.forget ⟨p.l1p.base, p.l1p.r0Size + p.l1p.r1Size⟩).forget ⟨p.l1d.base, p.l1d.r0Size + p.l1d.r1Size⟩).forget
    ⟨p.l2.p0Base, p.l2.p0Size⟩).forget ⟨p.l2.p1Base, p.l2.p1Size⟩

/-- Local reset: the caches are invalid, the buffers empty, transfers and coherence operations abandoned; modes, registers
and RAM stay (R561, spec/92_eei_decisions.md D30). -/
def State.localReset (s : State) : State :=
  let s0 := s.endDrain
  let s1 := s0.setL1p { s0.l1p with lines := [], op := none }
  let s2 := s1.setL1d { s1.l1d with lines := [], wbuf := [], victim := none, op := none }
  let s3 := s2.setL2 { s2.l2 with lines := [], op := none, out := none }
  (s3.setIdma0 { s3.idma0 with active := none, pending := none }).setIdma1
    { s3.idma1 with active := none, pending := none }

end Sys2Proof.Machine
end

