-- ==== Sys2Proof/Machine/Bwm.lean ====
section
/-!
DEFINITION. The register commands of bandwidth management (spec/44_bwm.md).
-/
namespace Sys2Proof.Machine

/-- `CPUARBD.read`: the implemented fields, every reserved bit 0 (spec/44_bwm.md R399). -/
def execCpuarbdRead (s : State) : Host.Outcome State Fault Refusal :=
  s.answer s.bwm.cpuarbd

/-- `CPUARBD.write`: the implemented fields take their bits of `v` (spec/44_bwm.md R399). -/
def execCpuarbdWrite (v : Word) (s : State) : Host.Outcome State Fault Refusal :=
  s.supervisorWrite (.block .l1d) (Reg.addr .cpuarbd) fun s => s.setBwm { s.bwm with cpuarbd := implemented cpuarbMask v }

/-- `CPUARBU.read`: the implemented fields, every reserved bit 0 (spec/44_bwm.md R399). -/
def execCpuarbuRead (s : State) : Host.Outcome State Fault Refusal :=
  s.answer s.bwm.cpuarbu

/-- `CPUARBU.write`: the implemented fields take their bits of `v` (spec/44_bwm.md R399). -/
def execCpuarbuWrite (v : Word) (s : State) : Host.Outcome State Fault Refusal :=
  s.supervisorWrite (.block .l2) (Reg.addr .cpuarbu) fun s => s.setBwm { s.bwm with cpuarbu := implemented cpuarbMask v }

/-- `CPUARBE.read`: the implemented fields, every reserved bit 0 (spec/44_bwm.md R399). -/
def execCpuarbeRead (s : State) : Host.Outcome State Fault Refusal :=
  s.answer s.bwm.cpuarbe

/-- `CPUARBE.write`: the implemented fields take their bits of `v` (spec/44_bwm.md R399). -/
def execCpuarbeWrite (v : Word) (s : State) : Host.Outcome State Fault Refusal :=
  s.supervisorWrite .other (Reg.addr .cpuarbe) fun s => s.setBwm { s.bwm with cpuarbe := implemented cpuarbMask v }

/-- `IDMAARBD.read`: the implemented fields, every reserved bit 0 (spec/44_bwm.md R399). -/
def execIdmaarbdRead (s : State) : Host.Outcome State Fault Refusal :=
  s.answer s.bwm.idmaarbd

/-- `IDMAARBD.write`: the implemented fields take their bits of `v` (spec/44_bwm.md R399). -/
def execIdmaarbdWrite (v : Word) (s : State) : Host.Outcome State Fault Refusal :=
  s.supervisorWrite (.block .l1d) (Reg.addr .idmaarbd) fun s => s.setBwm { s.bwm with idmaarbd := implemented maxwaitMask v }

/-- `IDMAARBU.read`: the implemented fields, every reserved bit 0 (spec/44_bwm.md R399). -/
def execIdmaarbuRead (s : State) : Host.Outcome State Fault Refusal :=
  s.answer s.bwm.idmaarbu

/-- `IDMAARBU.write`: the implemented fields take their bits of `v` (spec/44_bwm.md R399). -/
def execIdmaarbuWrite (v : Word) (s : State) : Host.Outcome State Fault Refusal :=
  s.supervisorWrite (.block .l2) (Reg.addr .idmaarbu) fun s => s.setBwm { s.bwm with idmaarbu := implemented maxwaitMask v }

/-- `IDMAARBE.read`: the implemented fields, every reserved bit 0 (spec/44_bwm.md R399). -/
def execIdmaarbeRead (s : State) : Host.Outcome State Fault Refusal :=
  s.answer s.bwm.idmaarbe

/-- `IDMAARBE.write`: the implemented fields take their bits of `v` (spec/44_bwm.md R399). -/
def execIdmaarbeWrite (v : Word) (s : State) : Host.Outcome State Fault Refusal :=
  s.supervisorWrite .other (Reg.addr .idmaarbe) fun s => s.setBwm { s.bwm with idmaarbe := implemented maxwaitMask v }

/-- `SDMAARBD.read`: the implemented fields, every reserved bit 0 (spec/44_bwm.md R399). -/
def execSdmaarbdRead (s : State) : Host.Outcome State Fault Refusal :=
  s.answer s.bwm.sdmaarbd

/-- `SDMAARBD.write`: the implemented fields take their bits of `v` (spec/44_bwm.md R399). -/
def execSdmaarbdWrite (v : Word) (s : State) : Host.Outcome State Fault Refusal :=
  s.supervisorWrite (.block .l1d) (Reg.addr .sdmaarbd) fun s => s.setBwm { s.bwm with sdmaarbd := implemented maxwaitMask v }

/-- `SDMAARBU.read`: the implemented fields, every reserved bit 0 (spec/44_bwm.md R399). -/
def execSdmaarbuRead (s : State) : Host.Outcome State Fault Refusal :=
  s.answer s.bwm.sdmaarbu

/-- `SDMAARBU.write`: the implemented fields take their bits of `v` (spec/44_bwm.md R399). -/
def execSdmaarbuWrite (v : Word) (s : State) : Host.Outcome State Fault Refusal :=
  s.supervisorWrite (.block .l2) (Reg.addr .sdmaarbu) fun s => s.setBwm { s.bwm with sdmaarbu := implemented maxwaitMask v }

/-- `SDMAARBE.read`: the implemented fields, every reserved bit 0 (spec/44_bwm.md R399). -/
def execSdmaarbeRead (s : State) : Host.Outcome State Fault Refusal :=
  s.answer s.bwm.sdmaarbe

/-- `SDMAARBE.write`: the implemented fields take their bits of `v` (spec/44_bwm.md R399). -/
def execSdmaarbeWrite (v : Word) (s : State) : Host.Outcome State Fault Refusal :=
  s.supervisorWrite .other (Reg.addr .sdmaarbe) fun s => s.setBwm { s.bwm with sdmaarbe := implemented maxwaitMask v }

/-- `UCARBD.read`: the implemented fields, every reserved bit 0 (spec/44_bwm.md R399). -/
def execUcarbdRead (s : State) : Host.Outcome State Fault Refusal :=
  s.answer s.bwm.ucarbd

/-- `UCARBD.write`: the implemented fields take their bits of `v` (spec/44_bwm.md R399). -/
def execUcarbdWrite (v : Word) (s : State) : Host.Outcome State Fault Refusal :=
  s.supervisorWrite (.block .l1d) (Reg.addr .ucarbd) fun s => s.setBwm { s.bwm with ucarbd := implemented maxwaitMask v }

/-- `UCARBU.read`: the implemented fields, every reserved bit 0 (spec/44_bwm.md R399). -/
def execUcarbuRead (s : State) : Host.Outcome State Fault Refusal :=
  s.answer s.bwm.ucarbu

/-- `UCARBU.write`: the implemented fields take their bits of `v` (spec/44_bwm.md R399). -/
def execUcarbuWrite (v : Word) (s : State) : Host.Outcome State Fault Refusal :=
  s.supervisorWrite (.block .l2) (Reg.addr .ucarbu) fun s => s.setBwm { s.bwm with ucarbu := implemented maxwaitMask v }

/-- `MDMAARBE.read`: the implemented fields, every reserved bit 0 (spec/44_bwm.md R399). -/
def execMdmaarbeRead (s : State) : Host.Outcome State Fault Refusal :=
  s.answer s.bwm.mdmaarbe

/-- `MDMAARBE.write`: the implemented fields take their bits of `v` (spec/44_bwm.md R399). -/
def execMdmaarbeWrite (v : Word) (s : State) : Host.Outcome State Fault Refusal :=
  s.supervisorWrite .other (Reg.addr .mdmaarbe) fun s => s.setBwm { s.bwm with mdmaarbe := implemented mdmaarbMask v }

end Sys2Proof.Machine
end

