-- ==== Sys2Proof/Machine/Idma.lean ====
section
/-!
DEFINITION. The register commands of the internal DMA (spec/43_idma.md).
-/
namespace Sys2Proof.Machine

/-- The stage after a write of a source register, the second in order (spec/43_idma.md R357). What counts as "in that order"
where a register is written more than once is the model's choice (DESIGN CHOICE, notes/assumptions/16.md): a source that is
rewritten after the destination asks for the destination again. -/
def Stage.afterSource : Stage → Stage
  | .none => .none
  | .mask | .source | .dest => .source

/-- The stage after a write of a destination register, the third in order (spec/43_idma.md R357). A destination written
before the source breaks the order, so that after mask, destination, source, destination a submission is free until the mask
is written again: the model's choice of what "in that order" means (DESIGN CHOICE, notes/assumptions/16.md). -/
def Stage.afterDest : Stage → Stage
  | .none | .mask => .none
  | .source | .dest => .dest

/-- `IDMA0_STAT.read`: PEND and ACTV of the channel (spec/43_idma.md R362). -/
def execIdma0StatRead (s : State) : Host.Outcome State Fault Refusal :=
  s.answer s.idma0.status

/-- `IDMA0_STAT.write`: ignored (spec/43_idma.md R354). -/
def execIdma0StatWrite (_v : Word) (s : State) : Host.Outcome State Fault Refusal :=
  s.done

/-- `IDMA1_STAT.read`: PEND and ACTV of the channel (spec/43_idma.md R362). -/
def execIdma1StatRead (s : State) : Host.Outcome State Fault Refusal :=
  s.answer s.idma1.status

/-- `IDMA1_STAT.write`: ignored (spec/43_idma.md R354). -/
def execIdma1StatWrite (_v : Word) (s : State) : Host.Outcome State Fault Refusal :=
  s.done

/-- `IDMA0_MASK.read`: the value last written (spec/43_idma.md R361). -/
def execIdma0MaskRead (s : State) : Host.Outcome State Fault Refusal :=
  s.answer s.idma0.mask

/-- `IDMA0_MASK.write`: the mask of the next submission (spec/43_idma.md R361). -/
def execIdma0MaskWrite (v : Word) (s : State) : Host.Outcome State Fault Refusal :=
  (s.setIdma0 { s.idma0 with mask := v, stage := .mask }).done

/-- `IDMA0_SOURCE.read`: the value last written, bits 4:0 zero (spec/43_idma.md R361). -/
def execIdma0SourceRead (s : State) : Host.Outcome State Fault Refusal :=
  s.answer s.idma0.source

/-- `IDMA0_SOURCE.write`: the source address of the next submission (spec/43_idma.md R361). -/
def execIdma0SourceWrite (v : Word) (s : State) : Host.Outcome State Fault Refusal :=
  (s.setIdma0 { s.idma0 with source := implemented idma0AddrMask v, stage := s.idma0.stage.afterSource }).done

/-- `IDMA0_DEST.read`: the value last written, bits 4:0 zero (spec/43_idma.md R361). -/
def execIdma0DestRead (s : State) : Host.Outcome State Fault Refusal :=
  s.answer s.idma0.dest

/-- `IDMA0_DEST.write`: the destination address of the next submission (spec/43_idma.md R361). -/
def execIdma0DestWrite (v : Word) (s : State) : Host.Outcome State Fault Refusal :=
  (s.setIdma0 { s.idma0 with dest := implemented idma0AddrMask v, stage := s.idma0.stage.afterDest }).done

/-- `IDMA0_COUNT.read`: INT and COUNT (spec/43_idma.md R357). -/
def execIdma0CountRead (s : State) : Host.Outcome State Fault Refusal :=
  s.answer s.idma0.count

/-- `IDMA0_COUNT.write`: stores INT and COUNT and submits a transfer (spec/43_idma.md R357). -/
def execIdma0CountWrite (v : Word) (s : State) : Host.Outcome State Fault Refusal :=
  outcome ((s.writeIdmaCount 0 (implemented idma0CountMask v) (s.captured s.idma0 (field v 0 4) false (bit v 28) 0#3)).map
    fun t => t.setReply .none)

/-- `IDMA1_SOURCE.read`: the value last written (spec/43_idma.md R367). -/
def execIdma1SourceRead (s : State) : Host.Outcome State Fault Refusal :=
  s.answer s.idma1.source

/-- `IDMA1_SOURCE.write`: the source address, or the fill value, of the next submission (spec/43_idma.md R367). -/
def execIdma1SourceWrite (v : Word) (s : State) : Host.Outcome State Fault Refusal :=
  (s.setIdma1 { s.idma1 with source := v, stage := .source }).done

/-- `IDMA1_DEST.read`: the value last written (spec/43_idma.md R367). -/
def execIdma1DestRead (s : State) : Host.Outcome State Fault Refusal :=
  s.answer s.idma1.dest

/-- `IDMA1_DEST.write`: the destination address of the next submission (spec/43_idma.md R367). -/
def execIdma1DestWrite (v : Word) (s : State) : Host.Outcome State Fault Refusal :=
  (s.setIdma1 { s.idma1 with dest := v, stage := s.idma1.stage.afterDest }).done

/-- `IDMA1_COUNT.read`: PRI, INT, FILL and COUNT (spec/43_idma.md R364). -/
def execIdma1CountRead (s : State) : Host.Outcome State Fault Refusal :=
  s.answer s.idma1.count

/-- `IDMA1_COUNT.write`: stores PRI, INT, FILL and COUNT and submits a transfer or a fill (spec/43_idma.md R364). -/
def execIdma1CountWrite (v : Word) (s : State) : Host.Outcome State Fault Refusal :=
  outcome ((s.writeIdmaCount 1 (implemented idma1CountMask v)
    (s.captured s.idma1 (field v 0 16) (bit v 16) (bit v 28) (BitVec.ofNat 3 (field v 29 3)))).map fun t => t.setReply .none)

end Sys2Proof.Machine
end

