-- ==== Sys2Proof/Machine/Intc.lean ====
section
/-!
DEFINITION. The register commands of the interrupt controller (spec/45_intc.md).
-/
namespace Sys2Proof.Machine

/-- The events whose flags a word of an event register stands for. -/
def eventsOf (n : Fin 4) (m : Word) : List Nat := ((List.range 32).filter fun i => bit m i).map fun i => 32 * n.val + i

/-- `EVTSETn`: flags set and events pulsed (spec/45_intc.md R413, R414; spec/92_eei_decisions.md D20). -/
def State.setEvents (s : State) (n : Fin 4) (v : Word) : State :=
  let m := if n = 0 then v &&& ~~~combinedBits else v
  s.setIntc { s.intc with evtFlag := s.intc.evtFlag.set n (s.intc.evtFlag[n] ||| m)
                          pulses := s.intc.pulses ++ eventsOf n m }

/-- A mask register's value with the bits of events 0 to 3 stuck at 1 (spec/45_intc.md R418, R427). -/
def withCombinedMasked (n : Fin 4) (v : Word) : Word := if n = 0 then v ||| combinedBits else v

/-- The store of `INTMUXn`, n = 1 to 3 (spec/45_intc.md R422). -/
def State.withIntMux (_s : State) (n : Fin 4) (f : Fin 3 → Host.Outcome State Fault Refusal) :
    Host.Outcome State Fault Refusal :=
  match n with
  | 0 => .refused (.noSuchRegister (Reg.addr (.intmux 0)))
  | 1 => f 0
  | 2 => f 1
  | 3 => f 2

/-- `EVTFLAGn.read`: the latched flags (spec/45_intc.md R416). -/
def execEvtflagRead (n : Fin 4) (s : State) : Host.Outcome State Fault Refusal :=
  s.answer s.intc.evtFlag[n]

/-- `EVTFLAGn.write`: a supervisor write is ignored, a user write refused (spec/45_intc.md R416, R431). -/
def execEvtflagWrite (n : Fin 4) (_v : Word) (s : State) : Host.Outcome State Fault Refusal :=
  s.supervisorWrite .other (Reg.addr (.evtflag n)) fun s => s

/-- `EVTSETn.read`: the register holds nothing and reads 0 (spec/45_intc.md R414). -/
def execEvtsetRead (_n : Fin 4) (s : State) : Host.Outcome State Fault Refusal :=
  s.answer 0#32

/-- `EVTSETn.write`: each 1 bit sets its event flag and pulses the event; events 0 to 3 do not exist (spec/45_intc.md
R413, R414). -/
def execEvtsetWrite (n : Fin 4) (v : Word) (s : State) : Host.Outcome State Fault Refusal :=
  s.supervisorWrite .other (Reg.addr (.evtset n)) fun s => s.setEvents n v

/-- `EVTCLRn.read`: the register holds nothing and reads 0 (spec/45_intc.md R415). -/
def execEvtclrRead (_n : Fin 4) (s : State) : Host.Outcome State Fault Refusal :=
  s.answer 0#32

/-- `EVTCLRn.write`: each 1 bit clears its event flag (spec/45_intc.md R415). -/
def execEvtclrWrite (n : Fin 4) (v : Word) (s : State) : Host.Outcome State Fault Refusal :=
  s.supervisorWrite .other (Reg.addr (.evtclr n)) fun s => s.setIntc { s.intc with evtFlag := s.intc.evtFlag.set n (s.intc.evtFlag[n] &&& ~~~v) }

/-- `EVTMASKn.read`: the event mask (spec/45_intc.md R418). -/
def execEvtmaskRead (n : Fin 4) (s : State) : Host.Outcome State Fault Refusal :=
  s.answer s.intc.evtMask[n]

/-- `EVTMASKn.write`: the event mask; events 0 to 3 stay masked (spec/45_intc.md R418). -/
def execEvtmaskWrite (n : Fin 4) (v : Word) (s : State) : Host.Outcome State Fault Refusal :=
  s.supervisorWrite .other (Reg.addr (.evtmask n)) fun s => s.setIntc { s.intc with evtMask := s.intc.evtMask.set n (withCombinedMasked n v) }

/-- `MEVTFLAGn.read`: the flags that are combined (spec/45_intc.md R419). -/
def execMevtflagRead (n : Fin 4) (s : State) : Host.Outcome State Fault Refusal :=
  s.answer (s.intc.masked n)

/-- `MEVTFLAGn.write`: a supervisor write is ignored, a user write refused (spec/45_intc.md R431). -/
def execMevtflagWrite (n : Fin 4) (_v : Word) (s : State) : Host.Outcome State Fault Refusal :=
  s.supervisorWrite .other (Reg.addr (.mevtflag n)) fun s => s

/-- `EXPMASKn.read`: the exception mask (spec/45_intc.md R427). -/
def execExpmaskRead (n : Fin 4) (s : State) : Host.Outcome State Fault Refusal :=
  s.answer s.intc.expMask[n]

/-- `EXPMASKn.write`: the exception mask; events 0 to 3 stay masked (spec/45_intc.md R427). -/
def execExpmaskWrite (n : Fin 4) (v : Word) (s : State) : Host.Outcome State Fault Refusal :=
  s.supervisorWrite .other (Reg.addr (.expmask n)) fun s => s.setIntc { s.intc with expMask := s.intc.expMask.set n (withCombinedMasked n v) }

/-- `MEXPFLAGn.read`: the flags that raise EXCEP (spec/45_intc.md R427). -/
def execMexpflagRead (n : Fin 4) (s : State) : Host.Outcome State Fault Refusal :=
  s.answer (s.intc.expMasked n)

/-- `MEXPFLAGn.write`: a supervisor write is ignored, a user write refused (spec/45_intc.md R431). -/
def execMexpflagWrite (n : Fin 4) (_v : Word) (s : State) : Host.Outcome State Fault Refusal :=
  s.supervisorWrite .other (Reg.addr (.mexpflag n)) fun s => s

/-- `INTMUXn.read`: the four selectors; there is no `INTMUX0` (spec/45_intc.md R422, spec/10_state.md R98). -/
def execIntmuxRead (n : Fin 4) (s : State) : Host.Outcome State Fault Refusal :=
  s.withIntMux n fun i => s.answer s.intc.intMux[i]

/-- `INTMUXn.write`: the four selectors; there is no `INTMUX0` (spec/45_intc.md R422, spec/10_state.md R98). -/
def execIntmuxWrite (n : Fin 4) (v : Word) (s : State) : Host.Outcome State Fault Refusal :=
  s.withIntMux n fun i => s.supervisorWrite .other (Reg.addr (.intmux n)) fun s => s.setIntc { s.intc with intMux := s.intc.intMux.set i (implemented intmuxMask v) }

/-- `INTXSTAT.read`: SYSINT, CPUINT and DROP of the first dropped interrupt (spec/45_intc.md R425). -/
def execIntxstatRead (s : State) : Host.Outcome State Fault Refusal :=
  s.answer s.intc.intXStat

/-- `INTXSTAT.write`: a supervisor write is ignored, a user write refused (spec/45_intc.md R431). -/
def execIntxstatWrite (_v : Word) (s : State) : Host.Outcome State Fault Refusal :=
  s.supervisorWrite .other (Reg.addr .intxstat) fun s => s

/-- `INTXCLR.read`: the register holds nothing and reads 0 (spec/45_intc.md R425). -/
def execIntxclrRead (s : State) : Host.Outcome State Fault Refusal :=
  s.answer 0#32

/-- `INTXCLR.write`: bit 0 clears `INTXSTAT` (spec/45_intc.md R425). -/
def execIntxclrWrite (v : Word) (s : State) : Host.Outcome State Fault Refusal :=
  s.supervisorWrite .other (Reg.addr .intxclr) fun s => if bit v 0 then s.setIntc { s.intc with intXStat := 0#32 } else s

/-- `INTDMASK.read`: the drop detection mask (spec/45_intc.md R425). -/
def execIntdmaskRead (s : State) : Host.Outcome State Fault Refusal :=
  s.answer s.intc.intDMask

/-- `INTDMASK.write`: the drop detection mask (spec/45_intc.md R425). -/
def execIntdmaskWrite (v : Word) (s : State) : Host.Outcome State Fault Refusal :=
  s.supervisorWrite .other (Reg.addr .intdmask) fun s => s.setIntc { s.intc with intDMask := implemented intdmaskMask v }

/-- `AEGMUXn.read`: the event selectors of the emulation block; the register exists where `HAS_AET` holds (spec/45_intc.md
R429). -/
def execAegmuxRead (n : Fin 2) (s : State) : Host.Outcome State Fault Refusal :=
  if s.plat.hasAet then s.answer s.intc.aegMux[n] else .refused (.noSuchRegister ((Reg.aegmux n).addrOn s.plat.aegmuxBase))

/-- `AEGMUXn.write`: the event selectors of the emulation block; the register exists where `HAS_AET` holds
(spec/45_intc.md R429). -/
def execAegmuxWrite (n : Fin 2) (v : Word) (s : State) : Host.Outcome State Fault Refusal :=
  if s.plat.hasAet then
    s.supervisorWrite .other ((Reg.aegmux n).addrOn s.plat.aegmuxBase) fun s => s.setIntc { s.intc with aegMux := s.intc.aegMux.set n v }
  else .refused (.noSuchRegister ((Reg.aegmux n).addrOn s.plat.aegmuxBase))

end Sys2Proof.Machine
end

