-- ==== Sys2Proof/Machine/L1d.lean ====
section
/-!
DEFINITION. The cache control commands of L1D (spec/41_l1d.md).
-/
namespace Sys2Proof.Machine

/-- `L1DCFG.read`: the mode last written (spec/41_l1d.md R232). -/
def execL1dcfgRead (s : State) : Host.Outcome State Fault Refusal :=
  s.answer (s.l1d.mode.setWidth 32)

/-- `L1DCFG.write`: the cache size; the cache is written back and invalidated (spec/41_l1d.md R231). -/
def execL1dcfgWrite (v : Word) (s : State) : Host.Outcome State Fault Refusal :=
  s.supervisorWrite (.block .l1d) (Reg.addr .l1dcfg) fun s => s.setL1dMode (v.setWidth 3)

/-- `L1DCC.read`: POPER and OPER (spec/41_l1d.md R236). -/
def execL1dccRead (s : State) : Host.Outcome State Fault Refusal :=
  s.answer (bitAt 16 s.l1d.poper ||| bitAt 0 s.l1d.oper)

/-- `L1DCC.write`: OPER is copied to POPER and takes bit 0 (spec/41_l1d.md R235). -/
def execL1dccWrite (v : Word) (s : State) : Host.Outcome State Fault Refusal :=
  (s.setL1d { s.l1d with poper := s.l1d.oper, oper := bit v 0 }).done

/-- `L1DINV.read`: bit 0 is 1 while the operation runs (spec/41_l1d.md R238). -/
def execL1dinvRead (s : State) : Host.Outcome State Fault Refusal :=
  s.answer (s.readGlobal .l1dinv)

/-- `L1DINV.write`: bit 0 starts the global invalidate (spec/41_l1d.md R238). -/
def execL1dinvWrite (v : Word) (s : State) : Host.Outcome State Fault Refusal :=
  s.supervisorWrite (.block .l1d) (Reg.addr .l1dinv) fun s => s.writeGlobal .l1dinv v

/-- `L1DWB.read`: bit 0 is 1 while the operation runs (spec/41_l1d.md R239). -/
def execL1dwbRead (s : State) : Host.Outcome State Fault Refusal :=
  s.answer (s.readGlobal .l1dwb)

/-- `L1DWB.write`: bit 0 starts the global writeback (spec/41_l1d.md R239). -/
def execL1dwbWrite (v : Word) (s : State) : Host.Outcome State Fault Refusal :=
  (s.writeGlobal .l1dwb v).done

/-- `L1DWBINV.read`: bit 0 is 1 while the operation runs (spec/41_l1d.md R240). -/
def execL1dwbinvRead (s : State) : Host.Outcome State Fault Refusal :=
  s.answer (s.readGlobal .l1dwbinv)

/-- `L1DWBINV.write`: bit 0 starts the global writeback-invalidate (spec/41_l1d.md R240). -/
def execL1dwbinvWrite (v : Word) (s : State) : Host.Outcome State Fault Refusal :=
  (s.writeGlobal .l1dwbinv v).done

/-- `L1DWIBAR.read`: an unspecified value (spec/41_l1d.md R241, R244; spec/93_implementation_defined.md U5). -/
def execL1dwibarRead (s : State) : Host.Outcome State Fault Refusal :=
  s.readBar

/-- `L1DWIBAR.write`: the base address of the next block writeback-invalidate (spec/41_l1d.md R241, R244). -/
def execL1dwibarWrite (v : Word) (s : State) : Host.Outcome State Fault Refusal :=
  (s.writeBar .l1dwiwc v).done

/-- `L1DWIWC.read`: the remaining word count, 0 when the operation does not run (spec/41_l1d.md R241, R244). -/
def execL1dwiwcRead (s : State) : Host.Outcome State Fault Refusal :=
  s.readCount .l1dwiwc

/-- `L1DWIWC.write`: a non-zero word count starts the block writeback-invalidate (spec/41_l1d.md R241, R244). -/
def execL1dwiwcWrite (v : Word) (s : State) : Host.Outcome State Fault Refusal :=
  outcome ((s.writeCount .l1dwiwc v).map fun t => t.setReply .none)

/-- `L1DWBAR.read`: an unspecified value (spec/41_l1d.md R241, R243; spec/93_implementation_defined.md U5). -/
def execL1dwbarRead (s : State) : Host.Outcome State Fault Refusal :=
  s.readBar

/-- `L1DWBAR.write`: the base address of the next block writeback (spec/41_l1d.md R241, R243). -/
def execL1dwbarWrite (v : Word) (s : State) : Host.Outcome State Fault Refusal :=
  (s.writeBar .l1dwwc v).done

/-- `L1DWWC.read`: the remaining word count, 0 when the operation does not run (spec/41_l1d.md R241, R243). -/
def execL1dwwcRead (s : State) : Host.Outcome State Fault Refusal :=
  s.readCount .l1dwwc

/-- `L1DWWC.write`: a non-zero word count starts the block writeback (spec/41_l1d.md R241, R243). -/
def execL1dwwcWrite (v : Word) (s : State) : Host.Outcome State Fault Refusal :=
  outcome ((s.writeCount .l1dwwc v).map fun t => t.setReply .none)

/-- `L1DIBAR.read`: an unspecified value (spec/41_l1d.md R241, R242; spec/93_implementation_defined.md U5). -/
def execL1dibarRead (s : State) : Host.Outcome State Fault Refusal :=
  s.readBar

/-- `L1DIBAR.write`: the base address of the next block invalidate (spec/41_l1d.md R241, R242). -/
def execL1dibarWrite (v : Word) (s : State) : Host.Outcome State Fault Refusal :=
  (s.writeBar .l1diwc v).done

/-- `L1DIWC.read`: the remaining word count, 0 when the operation does not run (spec/41_l1d.md R241, R242). -/
def execL1diwcRead (s : State) : Host.Outcome State Fault Refusal :=
  s.readCount .l1diwc

/-- `L1DIWC.write`: a non-zero word count starts the block invalidate (spec/41_l1d.md R241, R242). -/
def execL1diwcWrite (v : Word) (s : State) : Host.Outcome State Fault Refusal :=
  outcome ((s.writeCount .l1diwc v).map fun t => t.setReply .none)

end Sys2Proof.Machine
end

