-- ==== Sys2Proof/Machine/L1p.lean ====
section
/-!
DEFINITION. The cache control commands of L1P (spec/40_l1p.md).
-/
namespace Sys2Proof.Machine

/-- `L1PCFG.read`: the mode last written (spec/40_l1p.md R180). -/
def execL1pcfgRead (s : State) : Host.Outcome State Fault Refusal :=
  s.answer (s.l1p.mode.setWidth 32)

/-- `L1PCFG.write`: the cache size; the cache is invalidated (spec/40_l1p.md R179). -/
def execL1pcfgWrite (v : Word) (s : State) : Host.Outcome State Fault Refusal :=
  s.supervisorWrite (.block .l1p) (Reg.addr .l1pcfg) fun s => s.setL1pMode (v.setWidth 3)

/-- `L1PCC.read`: POPER and OPER (spec/40_l1p.md R184). -/
def execL1pccRead (s : State) : Host.Outcome State Fault Refusal :=
  s.answer (bitAt 16 s.l1p.poper ||| bitAt 0 s.l1p.oper)

/-- `L1PCC.write`: OPER is copied to POPER and takes bit 0 (spec/40_l1p.md R183). -/
def execL1pccWrite (v : Word) (s : State) : Host.Outcome State Fault Refusal :=
  (s.setL1p { s.l1p with poper := s.l1p.oper, oper := bit v 0 }).done

/-- `L1PINV.read`: bit 0 is 1 while the operation runs (spec/40_l1p.md R185, R186). -/
def execL1pinvRead (s : State) : Host.Outcome State Fault Refusal :=
  s.answer (s.readGlobal .l1pinv)

/-- `L1PINV.write`: bit 0 starts the global invalidate (spec/40_l1p.md R185, R186). -/
def execL1pinvWrite (v : Word) (s : State) : Host.Outcome State Fault Refusal :=
  (s.writeGlobal .l1pinv v).done

/-- `L1PIBAR.read`: an unspecified value (spec/40_l1p.md R187, R188; spec/93_implementation_defined.md U5). -/
def execL1pibarRead (s : State) : Host.Outcome State Fault Refusal :=
  s.readBar

/-- `L1PIBAR.write`: the base address of the next block invalidate (spec/40_l1p.md R187, R188). -/
def execL1pibarWrite (v : Word) (s : State) : Host.Outcome State Fault Refusal :=
  (s.writeBar .l1piwc v).done

/-- `L1PIWC.read`: the remaining word count, 0 when the operation does not run (spec/40_l1p.md R187, R188). -/
def execL1piwcRead (s : State) : Host.Outcome State Fault Refusal :=
  s.readCount .l1piwc

/-- `L1PIWC.write`: a non-zero word count starts the block invalidate (spec/40_l1p.md R187, R188). -/
def execL1piwcWrite (v : Word) (s : State) : Host.Outcome State Fault Refusal :=
  outcome ((s.writeCount .l1piwc v).map fun t => t.setReply .none)

end Sys2Proof.Machine
end

