-- ==== Sys2Proof/Machine/L2.lean ====
section
/-!
DEFINITION. The cache control, memory attribute and power-down commands of L2 (spec/42_l2.md).
-/
namespace Sys2Proof.Machine

/-- The value `L2CFG` reads as (spec/42_l2.md R297). -/
def State.l2cfgValue (s : State) : Word :=
  BitVec.ofNat 32 (s.plat.l2.numMM.toNat * 2 ^ 24 + s.plat.l2.mmid.toNat * 2 ^ 16 + s.l2.cc.toNat * 2 ^ 3 + s.l2.mode.toNat)

/-- The backward compatible global invalidates of L1P and L1D that bits 9 and 8 of `L2CFG` start (spec/42_l2.md R296). Each
waits for the operation in progress, so with both bits set the L1P invalidate completes before the L1D invalidate starts, and
at most one operation is in progress (R306; notes/assumptions/12.md). -/
def State.l2cfgInvalidates (s : State) (v : Word) : State :=
  let s1 := if bit v 9 then s.finishOps.startOp .l1pinv 0 0 else s
  if bit v 8 then s1.finishOps.startOp .l1dinv 0 0 else s1

/-- The effect of a write to `L2CFG` (spec/42_l2.md R296). -/
def State.writeL2cfg (s : State) (v : Word) : State :=
  let s1 := s.l2cfgInvalidates v
  (s1.setL2 { s1.l2 with cc := bit v 3 }).setL2Mode (v.setWidth 3)

/-- The index of `sleep[port][page]`. -/
def pageIndex (n page : Fin 2) : Fin 4 := ⟨2 * n.val + page.val, by omega⟩

/-- The sleep bits of a port, updated. -/
def State.setSleep (s : State) (n : Fin 2) (p0 p1 : Bool) : State :=
  s.setL2 { s.l2 with sleep := (s.l2.sleep.set (pageIndex n 0) p0).set (pageIndex n 1) p1 }

/-- `L2PDWAKEn` (spec/42_l2.md R337). -/
def State.wakePort (s : State) (n : Fin 2) (v : Word) : State :=
  s.setSleep n (s.l2.sleep[pageIndex n 0] && !bit v 0) (s.l2.sleep[pageIndex n 1] && !bit v 1)

/-- `L2PDSLEEPn`: whether a request is honoured is a free choice (spec/42_l2.md R338; notes/assumptions/29.md). -/
def State.sleepPort (s : State) (n : Fin 2) (v : Word) : State :=
  (s.setSleep n (s.l2.sleep[pageIndex n 0] || (bit v 0 && Config.freeBool s.free))
    (s.l2.sleep[pageIndex n 1] || (bit v 1 && Config.freeBool (s.free + 1)))).spend.spend

/-- `L2PDSTATn` (spec/42_l2.md R339). -/
def State.sleepStatus (s : State) (n : Fin 2) : Word :=
  bitAt 1 s.l2.sleep[pageIndex n 1] ||| bitAt 0 s.l2.sleep[pageIndex n 0]

/-- `L2CFG.read`: NUM MM, MMID, L2CC and L2MODE; IP and ID read 0 (spec/42_l2.md R297). -/
def execL2cfgRead (s : State) : Host.Outcome State Fault Refusal :=
  s.answer s.l2cfgValue

/-- `L2CFG.write`: the freeze bit, the cache size with the L2 cache written back and invalidated, and the backward compatible
global invalidates of L1P and L1D (spec/42_l2.md R296). -/
def execL2cfgWrite (v : Word) (s : State) : Host.Outcome State Fault Refusal :=
  s.supervisorWrite (.block .l2) (Reg.addr .l2cfg) fun s => s.writeL2cfg v

/-- `L2WB.read`: bit 0 is 1 while the operation runs (spec/42_l2.md R309). -/
def execL2wbRead (s : State) : Host.Outcome State Fault Refusal :=
  s.answer (s.readGlobal .l2wb)

/-- `L2WB.write`: bit 0 starts the global writeback (spec/42_l2.md R309). -/
def execL2wbWrite (v : Word) (s : State) : Host.Outcome State Fault Refusal :=
  (s.writeGlobal .l2wb v).done

/-- `L2WBINV.read`: bit 0 is 1 while the operation runs (spec/42_l2.md R310). -/
def execL2wbinvRead (s : State) : Host.Outcome State Fault Refusal :=
  s.answer (s.readGlobal .l2wbinv)

/-- `L2WBINV.write`: bit 0 starts the global writeback-invalidate (spec/42_l2.md R310). -/
def execL2wbinvWrite (v : Word) (s : State) : Host.Outcome State Fault Refusal :=
  (s.writeGlobal .l2wbinv v).done

/-- `L2INV.read`: bit 0 is 1 while the operation runs (spec/42_l2.md R311). -/
def execL2invRead (s : State) : Host.Outcome State Fault Refusal :=
  s.answer (s.readGlobal .l2inv)

/-- `L2INV.write`: bit 0 starts the global invalidate (spec/42_l2.md R311). -/
def execL2invWrite (v : Word) (s : State) : Host.Outcome State Fault Refusal :=
  s.supervisorWrite (.block .l2) (Reg.addr .l2inv) fun s => s.writeGlobal .l2inv v

/-- `L2WBAR.read`: an unspecified value (spec/42_l2.md R305, R312; spec/93_implementation_defined.md U5). -/
def execL2wbarRead (s : State) : Host.Outcome State Fault Refusal :=
  s.readBar

/-- `L2WBAR.write`: the base address of the next block writeback (spec/42_l2.md R305, R312). -/
def execL2wbarWrite (v : Word) (s : State) : Host.Outcome State Fault Refusal :=
  (s.writeBar .l2wwc v).done

/-- `L2WWC.read`: the remaining word count, 0 when the operation does not run (spec/42_l2.md R305, R312). -/
def execL2wwcRead (s : State) : Host.Outcome State Fault Refusal :=
  s.readCount .l2wwc

/-- `L2WWC.write`: a non-zero word count starts the block writeback (spec/42_l2.md R305, R312). -/
def execL2wwcWrite (v : Word) (s : State) : Host.Outcome State Fault Refusal :=
  outcome ((s.writeCount .l2wwc v).map fun t => t.setReply .none)

/-- `L2WIBAR.read`: an unspecified value (spec/42_l2.md R305, R313; spec/93_implementation_defined.md U5). -/
def execL2wibarRead (s : State) : Host.Outcome State Fault Refusal :=
  s.readBar

/-- `L2WIBAR.write`: the base address of the next block writeback-invalidate (spec/42_l2.md R305, R313). -/
def execL2wibarWrite (v : Word) (s : State) : Host.Outcome State Fault Refusal :=
  (s.writeBar .l2wiwc v).done

/-- `L2WIWC.read`: the remaining word count, 0 when the operation does not run (spec/42_l2.md R305, R313). -/
def execL2wiwcRead (s : State) : Host.Outcome State Fault Refusal :=
  s.readCount .l2wiwc

/-- `L2WIWC.write`: a non-zero word count starts the block writeback-invalidate (spec/42_l2.md R305, R313). -/
def execL2wiwcWrite (v : Word) (s : State) : Host.Outcome State Fault Refusal :=
  outcome ((s.writeCount .l2wiwc v).map fun t => t.setReply .none)

/-- `L2IBAR.read`: an unspecified value (spec/42_l2.md R305, R314; spec/93_implementation_defined.md U5). -/
def execL2ibarRead (s : State) : Host.Outcome State Fault Refusal :=
  s.readBar

/-- `L2IBAR.write`: the base address of the next block invalidate (spec/42_l2.md R305, R314). -/
def execL2ibarWrite (v : Word) (s : State) : Host.Outcome State Fault Refusal :=
  (s.writeBar .l2iwc v).done

/-- `L2IWC.read`: the remaining word count, 0 when the operation does not run (spec/42_l2.md R305, R314). -/
def execL2iwcRead (s : State) : Host.Outcome State Fault Refusal :=
  s.readCount .l2iwc

/-- `L2IWC.write`: a non-zero word count starts the block invalidate (spec/42_l2.md R305, R314). -/
def execL2iwcWrite (v : Word) (s : State) : Host.Outcome State Fault Refusal :=
  outcome ((s.writeCount .l2iwc v).map fun t => t.setReply .none)

/-- `MARn.read`: PC; `MAR0` reads 1 and `MAR1` to `MAR15` read 0 (spec/42_l2.md R317). -/
def execMarRead (n : Fin 256) (s : State) : Host.Outcome State Fault Refusal :=
  s.answer (bitAt 0 (s.marPc n.val))

/-- `MARn.write`: PC takes bit 0; `MAR0` to `MAR15` are read-only (spec/42_l2.md R317). -/
def execMarWrite (n : Fin 256) (v : Word) (s : State) : Host.Outcome State Fault Refusal :=
  s.supervisorWrite (.block .l2) (Reg.addr (.mar n)) fun s => if n.val ≤ 15 then s else s.setL2 { s.l2 with mar := s.l2.mar.set n (bit v 0) }

/-- `L2PDWAKEn.read`: the register holds nothing and reads 0 (spec/42_l2.md R337). -/
def execL2pdwakeRead (_n : Fin 2) (s : State) : Host.Outcome State Fault Refusal :=
  s.answer 0#32

/-- `L2PDWAKEn.write`: each 1 bit wakes a page of the port (spec/42_l2.md R337). -/
def execL2pdwakeWrite (n : Fin 2) (v : Word) (s : State) : Host.Outcome State Fault Refusal :=
  (s.wakePort n v).done

/-- `L2PDSLEEPn.read`: the register holds nothing and reads 0 (spec/42_l2.md R338). -/
def execL2pdsleepRead (_n : Fin 2) (s : State) : Host.Outcome State Fault Refusal :=
  s.answer 0#32

/-- `L2PDSLEEPn.write`: each 1 bit asks a page of the port to sleep; the request may be dropped (spec/42_l2.md R338). -/
def execL2pdsleepWrite (n : Fin 2) (v : Word) (s : State) : Host.Outcome State Fault Refusal :=
  (s.sleepPort n v).done

/-- `L2PDSTATn.read`: the sleep state of the two pages of the port (spec/42_l2.md R339). -/
def execL2pdstatRead (n : Fin 2) (s : State) : Host.Outcome State Fault Refusal :=
  s.answer (s.sleepStatus n)

/-- `L2PDSTATn.write`: ignored (spec/42_l2.md R339). -/
def execL2pdstatWrite (_n : Fin 2) (_v : Word) (s : State) : Host.Outcome State Fault Refusal :=
  s.done

end Sys2Proof.Machine
end

