-- ==== Sys2Proof/Machine/Misc.lean ====
section
/-!
DEFINITION. The register commands of the power-down controller and the miscellaneous registers (spec/47_pdc_misc.md).
-/
namespace Sys2Proof.Machine

/-- `PDCCMD.read`: MEGPD, and bits 15:0 always 1 (spec/47_pdc_misc.md R505). -/
def execPdccmdRead (s : State) : Host.Outcome State Fault Refusal :=
  s.answer (bitAt 16 s.pdc.megpd ||| 0x0000FFFF#32)

/-- `PDCCMD.write`: MEGPD takes bit 16; it acts when the CPU next enters IDLE (spec/47_pdc_misc.md R503, R505). -/
def execPdccmdWrite (v : Word) (s : State) : Host.Outcome State Fault Refusal :=
  s.supervisorWrite .other (Reg.addr .pdccmd) fun s => s.setPdc { s.pdc with megpd := bit v 16 }

/-- `MM_REVID.read`: the revision of the megamodule (spec/47_pdc_misc.md R506). -/
def execMmRevidRead (s : State) : Host.Outcome State Fault Refusal :=
  s.answer (s.plat.revId.setWidth 32)

/-- `MM_REVID.write`: ignored (spec/47_pdc_misc.md R506). -/
def execMmRevidWrite (_v : Word) (s : State) : Host.Outcome State Fault Refusal :=
  s.done

/-- `BUSERR.read`: ERR, XID and STAT of the first error (spec/47_pdc_misc.md R508). -/
def execBuserrRead (s : State) : Host.Outcome State Fault Refusal :=
  s.answer s.emc.busErr

/-- `BUSERR.write`: ignored (spec/47_pdc_misc.md R508). -/
def execBuserrWrite (_v : Word) (s : State) : Host.Outcome State Fault Refusal :=
  s.done

/-- `BUSERRCLR.read`: the register holds nothing and reads 0 (spec/47_pdc_misc.md R508). -/
def execBuserrclrRead (s : State) : Host.Outcome State Fault Refusal :=
  s.answer 0#32

/-- `BUSERRCLR.write`: bit 0 clears `BUSERR` (spec/47_pdc_misc.md R508). -/
def execBuserrclrWrite (v : Word) (s : State) : Host.Outcome State Fault Refusal :=
  s.supervisorWrite .other (Reg.addr .buserrclr) fun s => if bit v 0 then s.setEmc { s.emc with busErr := 0#32 } else s

end Sys2Proof.Machine
end

