-- ==== Sys2Proof/Machine/Mpa.lean ====
section
/-!
DEFINITION. The memory protection commands of L1P, L1D and L2 (spec/46_mpa.md).
-/
namespace Sys2Proof.Machine

/-- A memory protection register exists only where the device implements memory protection (spec/00_scope.md R5). -/
def State.ifProtected (s : State) (r : Reg) (o : Host.Outcome State Fault Refusal) : Host.Outcome State Fault Refusal :=
  if s.plat.hasMp then o else .refused (.noSuchRegister r.addr)

/-- A read of `XMPFAR`: indeterminate after reset in L1P and L1D (spec/93_implementation_defined.md U19, a free value). -/
def State.readFar (s : State) (x : Block) : Host.Outcome State Fault Refusal :=
  if (s.mp x).farKnown then s.answer (s.mp x).far else s.spend.answer (Config.freeWord s.free)

/-- `XMPFCR`: bit 0 clears the fault address and the fault status (spec/46_mpa.md R479). -/
def State.clearFault (s : State) (x : Block) (v : Word) : State :=
  if bit v 0 then s.setMp x { s.mp x with far := 0#32, farKnown := true, fsr := 0#32 } else s

/-- The lock of a block, updated. -/
def State.setLock (s : State) (x : Block) (l : Lock) : State := s.setMp x { s.mp x with lock := l }

/-- `XMPLKn`: one key word of the sequence, or a lock fault (spec/46_mpa.md R483). -/
def State.writeKey (s : State) (x : Block) (addr : Nat) (n : Fin 4) (v : Word) : State :=
  let l := (s.mp x).lock
  if l.armed && !l.seen[n] then s.setLock x { l with tmp := l.tmp.set n v, seen := l.seen.set n true }
  else (s.setLock x { l with armed := false }).lockFault x addr

/-- The key registers a block compares (spec/46_mpa.md R486). -/
def platKeys (p : Platform) : Block → List Nat
  | .l1p => p.l1p.keyRegs
  | .l1d => p.l1d.keyRegs
  | .l2 => p.l2.keyRegs

/-- All four key words have been written in the sequence under way. -/
def Lock.complete (l : Lock) : Bool := l.armed && l.seen[0] && l.seen[1] && l.seen[2] && l.seen[3]

/-- The written key agrees with the stored one in the compared registers. -/
def Lock.matches (l : Lock) (ks : List Nat) : Bool := ks.all fun i => l.tmp[i]? == l.key[i]?

/-- `KEYR` starts a sequence (spec/46_mpa.md R482). -/
def Lock.rearm (l : Lock) : Lock := { l with armed := true, seen := Vector.replicate 4 false }

/-- `LOCK` (spec/46_mpa.md R482). -/
def State.engage (s : State) (x : Block) (addr : Nat) : State :=
  let l := (s.mp x).lock
  if !l.lk && l.complete then s.setLock x { l with key := l.tmp, lk := true, armed := false }
  else (s.setLock x { l with armed := false }).lockFault x addr

/-- `UNLOCK` (spec/46_mpa.md R482, R486). -/
def State.disengage (s : State) (x : Block) (addr : Nat) : State :=
  let l := (s.mp x).lock
  if l.lk && l.complete && l.matches (platKeys s.plat x) then s.setLock x { l with lk := false, armed := false }
  else (s.setLock x { l with armed := false }).lockFault x addr

/-- `XMPLKCMD`: KEYR, LOCK, UNLOCK, in this order (spec/46_mpa.md R482; spec/93_implementation_defined.md U8). -/
def State.writeLockCmd (s : State) (x : Block) (addr : Nat) (v : Word) : State :=
  let s1 := if bit v 2 then s.setLock x (s.mp x).lock.rearm else s
  let s2 := if bit v 1 then s1.engage x addr else s1
  if bit v 0 then s2.disengage x addr else s2

/-- `L2MPFAR.read`: the fault address; indeterminate after reset in L1P and L1D (spec/46_mpa.md R479, spec/10_state.md
R77). -/
def execL2mpfarRead (s : State) : Host.Outcome State Fault Refusal :=
  s.ifProtected .l2mpfar <|
    s.readFar .l2

/-- `L2MPFAR.write`: a supervisor write is ignored, a user write refused (spec/46_mpa.md R479). -/
def execL2mpfarWrite (_v : Word) (s : State) : Host.Outcome State Fault Refusal :=
  s.ifProtected .l2mpfar <|
    s.supervisorWrite (.block .l2) (Reg.addr .l2mpfar) fun s => s

/-- `L2MPFSR.read`: the fault status (spec/46_mpa.md R479). -/
def execL2mpfsrRead (s : State) : Host.Outcome State Fault Refusal :=
  s.ifProtected .l2mpfsr <|
    s.answer (s.mp .l2).fsr

/-- `L2MPFSR.write`: a supervisor write is ignored, a user write refused (spec/46_mpa.md R479). -/
def execL2mpfsrWrite (_v : Word) (s : State) : Host.Outcome State Fault Refusal :=
  s.ifProtected .l2mpfsr <|
    s.supervisorWrite (.block .l2) (Reg.addr .l2mpfsr) fun s => s

/-- `L2MPFCR.read`: the register holds nothing and reads 0 (spec/46_mpa.md R479). -/
def execL2mpfcrRead (s : State) : Host.Outcome State Fault Refusal :=
  s.ifProtected .l2mpfcr <|
    s.answer 0#32

/-- `L2MPFCR.write`: bit 0 clears the fault address and status (spec/46_mpa.md R479). -/
def execL2mpfcrWrite (v : Word) (s : State) : Host.Outcome State Fault Refusal :=
  s.ifProtected .l2mpfcr <|
    s.supervisorWrite (.block .l2) (Reg.addr .l2mpfcr) fun s => s.clearFault .l2 v

/-- `L2MPLKn.read`: a key is never readable and reads 0 (spec/46_mpa.md R483). -/
def execL2mplkRead (n : Fin 4) (s : State) : Host.Outcome State Fault Refusal :=
  s.ifProtected (.l2mplk n) <|
    s.answer 0#32

/-- `L2MPLKn.write`: one key word of a lock sequence (spec/46_mpa.md R483). -/
def execL2mplkWrite (n : Fin 4) (v : Word) (s : State) : Host.Outcome State Fault Refusal :=
  s.ifProtected (.l2mplk n) <|
    s.supervisorWrite (.block .l2) (Reg.addr (.l2mplk n)) fun s => s.writeKey .l2 (Reg.addr (.l2mplk n)) n v

/-- `L2MPLKCMD.read`: the register holds nothing and reads 0 (spec/46_mpa.md R487). -/
def execL2mplkcmdRead (s : State) : Host.Outcome State Fault Refusal :=
  s.ifProtected .l2mplkcmd <|
    s.answer 0#32

/-- `L2MPLKCMD.write`: KEYR, LOCK and UNLOCK, in this order (spec/46_mpa.md R482). -/
def execL2mplkcmdWrite (v : Word) (s : State) : Host.Outcome State Fault Refusal :=
  s.ifProtected .l2mplkcmd <|
    s.supervisorWrite (.block .l2) (Reg.addr .l2mplkcmd) fun s => s.writeLockCmd .l2 (Reg.addr .l2mplkcmd) v

/-- `L2MPLKSTAT.read`: the lock state (spec/46_mpa.md R487). -/
def execL2mplkstatRead (s : State) : Host.Outcome State Fault Refusal :=
  s.ifProtected .l2mplkstat <|
    s.answer (bitAt 0 (s.mp .l2).lock.lk)

/-- `L2MPLKSTAT.write`: a supervisor write is ignored, a user write refused (spec/46_mpa.md R487). -/
def execL2mplkstatWrite (_v : Word) (s : State) : Host.Outcome State Fault Refusal :=
  s.ifProtected .l2mplkstat <|
    s.supervisorWrite (.block .l2) (Reg.addr .l2mplkstat) fun s => s

/-- `L2MPPAn.read`: the permission entry of a page (spec/42_l2.md R345). -/
def execL2mppaRead (n : Fin 64) (s : State) : Host.Outcome State Fault Refusal :=
  s.ifProtected (.l2mppa n) <|
    s.answer s.l2.mppa[n]

/-- `L2MPPAn.write`: the permission entry of a page takes the implemented bits, unless the lock is engaged (spec/42_l2.md
R345, spec/46_mpa.md R485). -/
def execL2mppaWrite (n : Fin 64) (v : Word) (s : State) : Host.Outcome State Fault Refusal :=
  s.ifProtected (.l2mppa n) <|
    s.supervisorWrite (.block .l2) (Reg.addr (.l2mppa n)) fun s => 
      if (s.mp .l2).lock.lk then s.lockFault .l2 (Reg.addr (.l2mppa n))
      else s.setL2 { s.l2 with mppa := s.l2.mppa.set n (implemented mppaMask v) }

/-- `L1PMPFAR.read`: the fault address; indeterminate after reset in L1P and L1D (spec/46_mpa.md R479, spec/10_state.md
R77). -/
def execL1pmpfarRead (s : State) : Host.Outcome State Fault Refusal :=
  s.ifProtected .l1pmpfar <|
    s.readFar .l1p

/-- `L1PMPFAR.write`: a supervisor write is ignored, a user write refused (spec/46_mpa.md R479). -/
def execL1pmpfarWrite (_v : Word) (s : State) : Host.Outcome State Fault Refusal :=
  s.ifProtected .l1pmpfar <|
    s.supervisorWrite (.block .l1p) (Reg.addr .l1pmpfar) fun s => s

/-- `L1PMPFSR.read`: the fault status (spec/46_mpa.md R479). -/
def execL1pmpfsrRead (s : State) : Host.Outcome State Fault Refusal :=
  s.ifProtected .l1pmpfsr <|
    s.answer (s.mp .l1p).fsr

/-- `L1PMPFSR.write`: a supervisor write is ignored, a user write refused (spec/46_mpa.md R479). -/
def execL1pmpfsrWrite (_v : Word) (s : State) : Host.Outcome State Fault Refusal :=
  s.ifProtected .l1pmpfsr <|
    s.supervisorWrite (.block .l1p) (Reg.addr .l1pmpfsr) fun s => s

/-- `L1PMPFCR.read`: the register holds nothing and reads 0 (spec/46_mpa.md R479). -/
def execL1pmpfcrRead (s : State) : Host.Outcome State Fault Refusal :=
  s.ifProtected .l1pmpfcr <|
    s.answer 0#32

/-- `L1PMPFCR.write`: bit 0 clears the fault address and status (spec/46_mpa.md R479). -/
def execL1pmpfcrWrite (v : Word) (s : State) : Host.Outcome State Fault Refusal :=
  s.ifProtected .l1pmpfcr <|
    s.supervisorWrite (.block .l1p) (Reg.addr .l1pmpfcr) fun s => s.clearFault .l1p v

/-- `L1PMPLKn.read`: a key is never readable and reads 0 (spec/46_mpa.md R483). -/
def execL1pmplkRead (n : Fin 4) (s : State) : Host.Outcome State Fault Refusal :=
  s.ifProtected (.l1pmplk n) <|
    s.answer 0#32

/-- `L1PMPLKn.write`: one key word of a lock sequence (spec/46_mpa.md R483). -/
def execL1pmplkWrite (n : Fin 4) (v : Word) (s : State) : Host.Outcome State Fault Refusal :=
  s.ifProtected (.l1pmplk n) <|
    s.supervisorWrite (.block .l1p) (Reg.addr (.l1pmplk n)) fun s => s.writeKey .l1p (Reg.addr (.l1pmplk n)) n v

/-- `L1PMPLKCMD.read`: the register holds nothing and reads 0 (spec/46_mpa.md R487). -/
def execL1pmplkcmdRead (s : State) : Host.Outcome State Fault Refusal :=
  s.ifProtected .l1pmplkcmd <|
    s.answer 0#32

/-- `L1PMPLKCMD.write`: KEYR, LOCK and UNLOCK, in this order (spec/46_mpa.md R482). -/
def execL1pmplkcmdWrite (v : Word) (s : State) : Host.Outcome State Fault Refusal :=
  s.ifProtected .l1pmplkcmd <|
    s.supervisorWrite (.block .l1p) (Reg.addr .l1pmplkcmd) fun s => s.writeLockCmd .l1p (Reg.addr .l1pmplkcmd) v

/-- `L1PMPLKSTAT.read`: the lock state (spec/46_mpa.md R487). -/
def execL1pmplkstatRead (s : State) : Host.Outcome State Fault Refusal :=
  s.ifProtected .l1pmplkstat <|
    s.answer (bitAt 0 (s.mp .l1p).lock.lk)

/-- `L1PMPLKSTAT.write`: a supervisor write is ignored, a user write refused (spec/46_mpa.md R487). -/
def execL1pmplkstatWrite (_v : Word) (s : State) : Host.Outcome State Fault Refusal :=
  s.ifProtected .l1pmplkstat <|
    s.supervisorWrite (.block .l1p) (Reg.addr .l1pmplkstat) fun s => s

/-- `L1PMPPAn.read`: the permission entry of a page (spec/40_l1p.md R210). -/
def execL1pmppaRead (n : Fin 32) (s : State) : Host.Outcome State Fault Refusal :=
  s.ifProtected (.l1pmppa n) <|
    s.answer s.l1p.mppa[n]

/-- `L1PMPPAn.write`: the permission entry of a page takes the implemented bits, unless the lock is engaged
(spec/40_l1p.md R210, spec/46_mpa.md R485). -/
def execL1pmppaWrite (n : Fin 32) (v : Word) (s : State) : Host.Outcome State Fault Refusal :=
  s.ifProtected (.l1pmppa n) <|
    s.supervisorWrite (.block .l1p) (Reg.addr (.l1pmppa n)) fun s => 
      if (s.mp .l1p).lock.lk then s.lockFault .l1p (Reg.addr (.l1pmppa n))
      else s.setL1p { s.l1p with mppa := s.l1p.mppa.set n (implemented mppaMask v) }

/-- `L1DMPFAR.read`: the fault address; indeterminate after reset in L1P and L1D (spec/46_mpa.md R479, spec/10_state.md
R77). -/
def execL1dmpfarRead (s : State) : Host.Outcome State Fault Refusal :=
  s.ifProtected .l1dmpfar <|
    s.readFar .l1d

/-- `L1DMPFAR.write`: a supervisor write is ignored, a user write refused (spec/46_mpa.md R479). -/
def execL1dmpfarWrite (_v : Word) (s : State) : Host.Outcome State Fault Refusal :=
  s.ifProtected .l1dmpfar <|
    s.supervisorWrite (.block .l1d) (Reg.addr .l1dmpfar) fun s => s

/-- `L1DMPFSR.read`: the fault status (spec/46_mpa.md R479). -/
def execL1dmpfsrRead (s : State) : Host.Outcome State Fault Refusal :=
  s.ifProtected .l1dmpfsr <|
    s.answer (s.mp .l1d).fsr

/-- `L1DMPFSR.write`: a supervisor write is ignored, a user write refused (spec/46_mpa.md R479). -/
def execL1dmpfsrWrite (_v : Word) (s : State) : Host.Outcome State Fault Refusal :=
  s.ifProtected .l1dmpfsr <|
    s.supervisorWrite (.block .l1d) (Reg.addr .l1dmpfsr) fun s => s

/-- `L1DMPFCR.read`: the register holds nothing and reads 0 (spec/46_mpa.md R479). -/
def execL1dmpfcrRead (s : State) : Host.Outcome State Fault Refusal :=
  s.ifProtected .l1dmpfcr <|
    s.answer 0#32

/-- `L1DMPFCR.write`: bit 0 clears the fault address and status (spec/46_mpa.md R479). -/
def execL1dmpfcrWrite (v : Word) (s : State) : Host.Outcome State Fault Refusal :=
  s.ifProtected .l1dmpfcr <|
    s.supervisorWrite (.block .l1d) (Reg.addr .l1dmpfcr) fun s => s.clearFault .l1d v

/-- `L1DMPLKn.read`: a key is never readable and reads 0 (spec/46_mpa.md R483). -/
def execL1dmplkRead (n : Fin 4) (s : State) : Host.Outcome State Fault Refusal :=
  s.ifProtected (.l1dmplk n) <|
    s.answer 0#32

/-- `L1DMPLKn.write`: one key word of a lock sequence (spec/46_mpa.md R483). -/
def execL1dmplkWrite (n : Fin 4) (v : Word) (s : State) : Host.Outcome State Fault Refusal :=
  s.ifProtected (.l1dmplk n) <|
    s.supervisorWrite (.block .l1d) (Reg.addr (.l1dmplk n)) fun s => s.writeKey .l1d (Reg.addr (.l1dmplk n)) n v

/-- `L1DMPLKCMD.read`: the register holds nothing and reads 0 (spec/46_mpa.md R487). -/
def execL1dmplkcmdRead (s : State) : Host.Outcome State Fault Refusal :=
  s.ifProtected .l1dmplkcmd <|
    s.answer 0#32

/-- `L1DMPLKCMD.write`: KEYR, LOCK and UNLOCK, in this order (spec/46_mpa.md R482). -/
def execL1dmplkcmdWrite (v : Word) (s : State) : Host.Outcome State Fault Refusal :=
  s.ifProtected .l1dmplkcmd <|
    s.supervisorWrite (.block .l1d) (Reg.addr .l1dmplkcmd) fun s => s.writeLockCmd .l1d (Reg.addr .l1dmplkcmd) v

/-- `L1DMPLKSTAT.read`: the lock state (spec/46_mpa.md R487). -/
def execL1dmplkstatRead (s : State) : Host.Outcome State Fault Refusal :=
  s.ifProtected .l1dmplkstat <|
    s.answer (bitAt 0 (s.mp .l1d).lock.lk)

/-- `L1DMPLKSTAT.write`: a supervisor write is ignored, a user write refused (spec/46_mpa.md R487). -/
def execL1dmplkstatWrite (_v : Word) (s : State) : Host.Outcome State Fault Refusal :=
  s.ifProtected .l1dmplkstat <|
    s.supervisorWrite (.block .l1d) (Reg.addr .l1dmplkstat) fun s => s

/-- `L1DMPPAn.read`: the permission entry of a page (spec/41_l1d.md R268). -/
def execL1dmppaRead (n : Fin 32) (s : State) : Host.Outcome State Fault Refusal :=
  s.ifProtected (.l1dmppa n) <|
    s.answer s.l1d.mppa[n]

/-- `L1DMPPAn.write`: the permission entry of a page takes the implemented bits, unless the lock is engaged
(spec/41_l1d.md R268, spec/46_mpa.md R485). -/
def execL1dmppaWrite (n : Fin 32) (v : Word) (s : State) : Host.Outcome State Fault Refusal :=
  s.ifProtected (.l1dmppa n) <|
    s.supervisorWrite (.block .l1d) (Reg.addr (.l1dmppa n)) fun s => 
      if (s.mp .l1d).lock.lk then s.lockFault .l1d (Reg.addr (.l1dmppa n))
      else s.setL1d { s.l1d with mppa := s.l1d.mppa.set n (implemented l1dMppaMask v) }

end Sys2Proof.Machine
end

