-- ==== Sys2Proof/Machine/Dispatch.lean ====
section
/-!
DEFINITION. The meaning of every instruction, one arm for each.
-/
namespace Sys2Proof.Machine

def exec (i : Instr) (s : State) : Host.Outcome State Fault Refusal :=
  match i with
  | .evtflagRead n => Sys2Proof.Machine.execEvtflagRead n s
  | .evtflagWrite n v => Sys2Proof.Machine.execEvtflagWrite n v s
  | .evtsetRead n => Sys2Proof.Machine.execEvtsetRead n s
  | .evtsetWrite n v => Sys2Proof.Machine.execEvtsetWrite n v s
  | .evtclrRead n => Sys2Proof.Machine.execEvtclrRead n s
  | .evtclrWrite n v => Sys2Proof.Machine.execEvtclrWrite n v s
  | .evtmaskRead n => Sys2Proof.Machine.execEvtmaskRead n s
  | .evtmaskWrite n v => Sys2Proof.Machine.execEvtmaskWrite n v s
  | .mevtflagRead n => Sys2Proof.Machine.execMevtflagRead n s
  | .mevtflagWrite n v => Sys2Proof.Machine.execMevtflagWrite n v s
  | .expmaskRead n => Sys2Proof.Machine.execExpmaskRead n s
  | .expmaskWrite n v => Sys2Proof.Machine.execExpmaskWrite n v s
  | .mexpflagRead n => Sys2Proof.Machine.execMexpflagRead n s
  | .mexpflagWrite n v => Sys2Proof.Machine.execMexpflagWrite n v s
  | .intmuxRead n => Sys2Proof.Machine.execIntmuxRead n s
  | .intmuxWrite n v => Sys2Proof.Machine.execIntmuxWrite n v s
  | .intxstatRead => Sys2Proof.Machine.execIntxstatRead s
  | .intxstatWrite v => Sys2Proof.Machine.execIntxstatWrite v s
  | .intxclrRead => Sys2Proof.Machine.execIntxclrRead s
  | .intxclrWrite v => Sys2Proof.Machine.execIntxclrWrite v s
  | .intdmaskRead => Sys2Proof.Machine.execIntdmaskRead s
  | .intdmaskWrite v => Sys2Proof.Machine.execIntdmaskWrite v s
  | .aegmuxRead n => Sys2Proof.Machine.execAegmuxRead n s
  | .aegmuxWrite n v => Sys2Proof.Machine.execAegmuxWrite n v s
  | .pdccmdRead => Sys2Proof.Machine.execPdccmdRead s
  | .pdccmdWrite v => Sys2Proof.Machine.execPdccmdWrite v s
  | .mmRevidRead => Sys2Proof.Machine.execMmRevidRead s
  | .mmRevidWrite v => Sys2Proof.Machine.execMmRevidWrite v s
  | .idma0StatRead => Sys2Proof.Machine.execIdma0StatRead s
  | .idma0StatWrite v => Sys2Proof.Machine.execIdma0StatWrite v s
  | .idma1StatRead => Sys2Proof.Machine.execIdma1StatRead s
  | .idma1StatWrite v => Sys2Proof.Machine.execIdma1StatWrite v s
  | .idma0MaskRead => Sys2Proof.Machine.execIdma0MaskRead s
  | .idma0MaskWrite v => Sys2Proof.Machine.execIdma0MaskWrite v s
  | .idma0SourceRead => Sys2Proof.Machine.execIdma0SourceRead s
  | .idma0SourceWrite v => Sys2Proof.Machine.execIdma0SourceWrite v s
  | .idma0DestRead => Sys2Proof.Machine.execIdma0DestRead s
  | .idma0DestWrite v => Sys2Proof.Machine.execIdma0DestWrite v s
  | .idma0CountRead => Sys2Proof.Machine.execIdma0CountRead s
  | .idma0CountWrite v => Sys2Proof.Machine.execIdma0CountWrite v s
  | .idma1SourceRead => Sys2Proof.Machine.execIdma1SourceRead s
  | .idma1SourceWrite v => Sys2Proof.Machine.execIdma1SourceWrite v s
  | .idma1DestRead => Sys2Proof.Machine.execIdma1DestRead s
  | .idma1DestWrite v => Sys2Proof.Machine.execIdma1DestWrite v s
  | .idma1CountRead => Sys2Proof.Machine.execIdma1CountRead s
  | .idma1CountWrite v => Sys2Proof.Machine.execIdma1CountWrite v s
  | .cpuarbeRead => Sys2Proof.Machine.execCpuarbeRead s
  | .cpuarbeWrite v => Sys2Proof.Machine.execCpuarbeWrite v s
  | .idmaarbeRead => Sys2Proof.Machine.execIdmaarbeRead s
  | .idmaarbeWrite v => Sys2Proof.Machine.execIdmaarbeWrite v s
  | .sdmaarbeRead => Sys2Proof.Machine.execSdmaarbeRead s
  | .sdmaarbeWrite v => Sys2Proof.Machine.execSdmaarbeWrite v s
  | .mdmaarbeRead => Sys2Proof.Machine.execMdmaarbeRead s
  | .mdmaarbeWrite v => Sys2Proof.Machine.execMdmaarbeWrite v s
  | .cpuarbuRead => Sys2Proof.Machine.execCpuarbuRead s
  | .cpuarbuWrite v => Sys2Proof.Machine.execCpuarbuWrite v s
  | .idmaarbuRead => Sys2Proof.Machine.execIdmaarbuRead s
  | .idmaarbuWrite v => Sys2Proof.Machine.execIdmaarbuWrite v s
  | .sdmaarbuRead => Sys2Proof.Machine.execSdmaarbuRead s
  | .sdmaarbuWrite v => Sys2Proof.Machine.execSdmaarbuWrite v s
  | .ucarbuRead => Sys2Proof.Machine.execUcarbuRead s
  | .ucarbuWrite v => Sys2Proof.Machine.execUcarbuWrite v s
  | .cpuarbdRead => Sys2Proof.Machine.execCpuarbdRead s
  | .cpuarbdWrite v => Sys2Proof.Machine.execCpuarbdWrite v s
  | .idmaarbdRead => Sys2Proof.Machine.execIdmaarbdRead s
  | .idmaarbdWrite v => Sys2Proof.Machine.execIdmaarbdWrite v s
  | .sdmaarbdRead => Sys2Proof.Machine.execSdmaarbdRead s
  | .sdmaarbdWrite v => Sys2Proof.Machine.execSdmaarbdWrite v s
  | .ucarbdRead => Sys2Proof.Machine.execUcarbdRead s
  | .ucarbdWrite v => Sys2Proof.Machine.execUcarbdWrite v s
  | .buserrRead => Sys2Proof.Machine.execBuserrRead s
  | .buserrWrite v => Sys2Proof.Machine.execBuserrWrite v s
  | .buserrclrRead => Sys2Proof.Machine.execBuserrclrRead s
  | .buserrclrWrite v => Sys2Proof.Machine.execBuserrclrWrite v s
  | .l2cfgRead => Sys2Proof.Machine.execL2cfgRead s
  | .l2cfgWrite v => Sys2Proof.Machine.execL2cfgWrite v s
  | .l1pcfgRead => Sys2Proof.Machine.execL1pcfgRead s
  | .l1pcfgWrite v => Sys2Proof.Machine.execL1pcfgWrite v s
  | .l1pccRead => Sys2Proof.Machine.execL1pccRead s
  | .l1pccWrite v => Sys2Proof.Machine.execL1pccWrite v s
  | .l1dcfgRead => Sys2Proof.Machine.execL1dcfgRead s
  | .l1dcfgWrite v => Sys2Proof.Machine.execL1dcfgWrite v s
  | .l1dccRead => Sys2Proof.Machine.execL1dccRead s
  | .l1dccWrite v => Sys2Proof.Machine.execL1dccWrite v s
  | .l2wbarRead => Sys2Proof.Machine.execL2wbarRead s
  | .l2wbarWrite v => Sys2Proof.Machine.execL2wbarWrite v s
  | .l2wwcRead => Sys2Proof.Machine.execL2wwcRead s
  | .l2wwcWrite v => Sys2Proof.Machine.execL2wwcWrite v s
  | .l2wibarRead => Sys2Proof.Machine.execL2wibarRead s
  | .l2wibarWrite v => Sys2Proof.Machine.execL2wibarWrite v s
  | .l2wiwcRead => Sys2Proof.Machine.execL2wiwcRead s
  | .l2wiwcWrite v => Sys2Proof.Machine.execL2wiwcWrite v s
  | .l2ibarRead => Sys2Proof.Machine.execL2ibarRead s
  | .l2ibarWrite v => Sys2Proof.Machine.execL2ibarWrite v s
  | .l2iwcRead => Sys2Proof.Machine.execL2iwcRead s
  | .l2iwcWrite v => Sys2Proof.Machine.execL2iwcWrite v s
  | .l1pibarRead => Sys2Proof.Machine.execL1pibarRead s
  | .l1pibarWrite v => Sys2Proof.Machine.execL1pibarWrite v s
  | .l1piwcRead => Sys2Proof.Machine.execL1piwcRead s
  | .l1piwcWrite v => Sys2Proof.Machine.execL1piwcWrite v s
  | .l1dwibarRead => Sys2Proof.Machine.execL1dwibarRead s
  | .l1dwibarWrite v => Sys2Proof.Machine.execL1dwibarWrite v s
  | .l1dwiwcRead => Sys2Proof.Machine.execL1dwiwcRead s
  | .l1dwiwcWrite v => Sys2Proof.Machine.execL1dwiwcWrite v s
  | .l1dwbarRead => Sys2Proof.Machine.execL1dwbarRead s
  | .l1dwbarWrite v => Sys2Proof.Machine.execL1dwbarWrite v s
  | .l1dwwcRead => Sys2Proof.Machine.execL1dwwcRead s
  | .l1dwwcWrite v => Sys2Proof.Machine.execL1dwwcWrite v s
  | .l1dibarRead => Sys2Proof.Machine.execL1dibarRead s
  | .l1dibarWrite v => Sys2Proof.Machine.execL1dibarWrite v s
  | .l1diwcRead => Sys2Proof.Machine.execL1diwcRead s
  | .l1diwcWrite v => Sys2Proof.Machine.execL1diwcWrite v s
  | .l2wbRead => Sys2Proof.Machine.execL2wbRead s
  | .l2wbWrite v => Sys2Proof.Machine.execL2wbWrite v s
  | .l2wbinvRead => Sys2Proof.Machine.execL2wbinvRead s
  | .l2wbinvWrite v => Sys2Proof.Machine.execL2wbinvWrite v s
  | .l2invRead => Sys2Proof.Machine.execL2invRead s
  | .l2invWrite v => Sys2Proof.Machine.execL2invWrite v s
  | .l1pinvRead => Sys2Proof.Machine.execL1pinvRead s
  | .l1pinvWrite v => Sys2Proof.Machine.execL1pinvWrite v s
  | .l1dwbRead => Sys2Proof.Machine.execL1dwbRead s
  | .l1dwbWrite v => Sys2Proof.Machine.execL1dwbWrite v s
  | .l1dwbinvRead => Sys2Proof.Machine.execL1dwbinvRead s
  | .l1dwbinvWrite v => Sys2Proof.Machine.execL1dwbinvWrite v s
  | .l1dinvRead => Sys2Proof.Machine.execL1dinvRead s
  | .l1dinvWrite v => Sys2Proof.Machine.execL1dinvWrite v s
  | .marRead n => Sys2Proof.Machine.execMarRead n s
  | .marWrite n v => Sys2Proof.Machine.execMarWrite n v s
  | .l2mpfarRead => Sys2Proof.Machine.execL2mpfarRead s
  | .l2mpfarWrite v => Sys2Proof.Machine.execL2mpfarWrite v s
  | .l2mpfsrRead => Sys2Proof.Machine.execL2mpfsrRead s
  | .l2mpfsrWrite v => Sys2Proof.Machine.execL2mpfsrWrite v s
  | .l2mpfcrRead => Sys2Proof.Machine.execL2mpfcrRead s
  | .l2mpfcrWrite v => Sys2Proof.Machine.execL2mpfcrWrite v s
  | .l2mplkRead n => Sys2Proof.Machine.execL2mplkRead n s
  | .l2mplkWrite n v => Sys2Proof.Machine.execL2mplkWrite n v s
  | .l2mplkcmdRead => Sys2Proof.Machine.execL2mplkcmdRead s
  | .l2mplkcmdWrite v => Sys2Proof.Machine.execL2mplkcmdWrite v s
  | .l2mplkstatRead => Sys2Proof.Machine.execL2mplkstatRead s
  | .l2mplkstatWrite v => Sys2Proof.Machine.execL2mplkstatWrite v s
  | .l1pmpfarRead => Sys2Proof.Machine.execL1pmpfarRead s
  | .l1pmpfarWrite v => Sys2Proof.Machine.execL1pmpfarWrite v s
  | .l1pmpfsrRead => Sys2Proof.Machine.execL1pmpfsrRead s
  | .l1pmpfsrWrite v => Sys2Proof.Machine.execL1pmpfsrWrite v s
  | .l1pmpfcrRead => Sys2Proof.Machine.execL1pmpfcrRead s
  | .l1pmpfcrWrite v => Sys2Proof.Machine.execL1pmpfcrWrite v s
  | .l1pmplkRead n => Sys2Proof.Machine.execL1pmplkRead n s
  | .l1pmplkWrite n v => Sys2Proof.Machine.execL1pmplkWrite n v s
  | .l1pmplkcmdRead => Sys2Proof.Machine.execL1pmplkcmdRead s
  | .l1pmplkcmdWrite v => Sys2Proof.Machine.execL1pmplkcmdWrite v s
  | .l1pmplkstatRead => Sys2Proof.Machine.execL1pmplkstatRead s
  | .l1pmplkstatWrite v => Sys2Proof.Machine.execL1pmplkstatWrite v s
  | .l1dmpfarRead => Sys2Proof.Machine.execL1dmpfarRead s
  | .l1dmpfarWrite v => Sys2Proof.Machine.execL1dmpfarWrite v s
  | .l1dmpfsrRead => Sys2Proof.Machine.execL1dmpfsrRead s
  | .l1dmpfsrWrite v => Sys2Proof.Machine.execL1dmpfsrWrite v s
  | .l1dmpfcrRead => Sys2Proof.Machine.execL1dmpfcrRead s
  | .l1dmpfcrWrite v => Sys2Proof.Machine.execL1dmpfcrWrite v s
  | .l1dmplkRead n => Sys2Proof.Machine.execL1dmplkRead n s
  | .l1dmplkWrite n v => Sys2Proof.Machine.execL1dmplkWrite n v s
  | .l1dmplkcmdRead => Sys2Proof.Machine.execL1dmplkcmdRead s
  | .l1dmplkcmdWrite v => Sys2Proof.Machine.execL1dmplkcmdWrite v s
  | .l1dmplkstatRead => Sys2Proof.Machine.execL1dmplkstatRead s
  | .l1dmplkstatWrite v => Sys2Proof.Machine.execL1dmplkstatWrite v s
  | .l2mppaRead n => Sys2Proof.Machine.execL2mppaRead n s
  | .l2mppaWrite n v => Sys2Proof.Machine.execL2mppaWrite n v s
  | .l1pmppaRead n => Sys2Proof.Machine.execL1pmppaRead n s
  | .l1pmppaWrite n v => Sys2Proof.Machine.execL1pmppaWrite n v s
  | .l1dmppaRead n => Sys2Proof.Machine.execL1dmppaRead n s
  | .l1dmppaWrite n v => Sys2Proof.Machine.execL1dmppaWrite n v s
  | .l2pdwakeRead n => Sys2Proof.Machine.execL2pdwakeRead n s
  | .l2pdwakeWrite n v => Sys2Proof.Machine.execL2pdwakeWrite n v s
  | .l2pdsleepRead n => Sys2Proof.Machine.execL2pdsleepRead n s
  | .l2pdsleepWrite n v => Sys2Proof.Machine.execL2pdsleepWrite n v s
  | .l2pdstatRead n => Sys2Proof.Machine.execL2pdstatRead n s
  | .l2pdstatWrite n v => Sys2Proof.Machine.execL2pdstatWrite n v s

end Sys2Proof.Machine
end

