-- ==== Sys2Proof/Machine/Agents.lean ====
section
/-!
DEFINITION. What each agent's step does (spec/20_memory.md R131): the actions of the CPU, of the controllers and engines, and
the inputs of the platform. The step itself stands in Step.lean and only calls these.
-/
namespace Sys2Proof.Machine

/-- An outcome whose next state is passed on. -/
def onNext (o : Host.Outcome State Fault Refusal) (f : State → State) : Host.Outcome State Fault Refusal :=
  match o with
  | .next s => .next (f s)
  | .fault r => .fault r
  | .refused r => .refused r

/-- The CPU issues accesses: it is powered and not idle (spec/10_state.md R21, spec/47_pdc_misc.md R503), and no access of
several steps is under way (spec/20_memory.md R108). -/
def State.cpuReady (s : State) : Bool := s.cpu.running && !s.cpu.idle && s.cpu.rest.isNone

/-- A register command is decoded and carried out (spec/30_encoding.md R152). -/
def runCommand (ws : List Word) (s : State) : Host.Outcome State Fault Refusal :=
  match decodeOn s.plat.aegmuxBase ws with
  | .ok i => exec i s
  | .error e => .refused (.undecodable e)

/-- The register command a CPU access is: an aligned 32-bit access at the address of a register
(spec/10_state.md R22, spec/20_memory.md R114). -/
def registerAt (b : AegmuxBase) (a width : Nat) : Option Reg := if a % 4 = 0 ∧ width = 4 then Reg.ofAddrOn b a else none

/-- A CPU load: a register read, or an access to memory (spec/20_memory.md R114). -/
def cpuLoad (a width : Nat) (s : State) : Host.Outcome State Fault Refusal :=
  match registerAt s.plat.aegmuxBase a width with
  | some r => exec r.read s
  | none => outcome (s.loadBytes a width)

/-- A CPU store: a register write, or an access to memory (spec/20_memory.md R114). -/
def cpuStore (a width : Nat) (v : BitVec 64) (s : State) : Host.Outcome State Fault Refusal :=
  match registerAt s.plat.aegmuxBase a width with
  | some r => exec (r.write (v.setWidth 32)) s
  | none => outcome ((s.storeBytes a (bytesOf s.plat.endian v.toNat width)).map fun t => t.setReply .none)

/-- The events the platform may assert: the available events and PDC_INT (spec/45_intc.md R430, spec/47_pdc_misc.md R504). -/
def isPlatformEvent (e : Nat) : Bool := (4 ≤ e && e ≤ 8) || e = 10 || (15 ≤ e && e ≤ 95) || e = 118

/-- A byte outside the megamodule changes: external memory, or a register of a peripheral (spec/20_memory.md R111, R112). -/
def poke (a : Nat) (b : Byte) (s : State) : Host.Outcome State Fault Refusal :=
  if a < topOfMemory && (s.region a = .external || s.region a = .extCfg) then .next (s.setMem (s.mem.write a b))
  else .refused (.notOutside a)

/-- A load whose second part is still to come (spec/20_memory.md R108). -/
def State.midLoad (s : State) : Bool :=
  match s.cpu.rest with
  | some (.load _ _ _) => true
  | some (.store _ _) | none => false

/-- The CPU may make a step of access `x`, or with `none` one that is no access L2 makes room for: no other access is under
way. -/
def State.mayIssue (s : State) (x : Option Access) : Bool := s.cpuReady && (s.cpu.issued.isNone || s.cpu.issued = x)

/-- L2 may begin to make room for that access, or with `none` for the oldest entry of the write buffer. -/
def State.mayEvict (s : State) (x : Option Access) : Bool :=
  match x with
  | none => true
  | some .loadRest => s.midLoad
  | some y => s.mayIssue (some y)

/-- A step of the CPU that begins in a state where the CPU may step: what its last access read ahead is gone after it. An
interrupt or an exception is taken by such a step too, so never between the steps of one access, of which the spec says
nothing (spec/60_exceptions.md R535, R537; DESIGN CHOICE, unsafe: notes/assumptions/11.md). -/
def cpuStep (s : State) (x : Option Access) (o : Host.Outcome State Fault Refusal) : Host.Outcome State Fault Refusal :=
  if s.mayIssue x then onNext o State.endAccess else .refused .cpuStopped

/-- The packet at `a` is the one the CPU fetched last (spec/70_reset_and_hazards.md R575). -/
def State.fetched (s : State) (a : Nat) : State := s.setCpu { s.cpu with lastFetch := some (a / 32 * 32) }

/-- The bytes of the access under way that are still to come: their first address and their number. -/
def State.restSpan (s : State) : Nat × Nat :=
  match s.cpu.rest with
  | none => (0, 0)
  | some (.store a bs) => (a, bs.length)
  | some (.load a n _) => (a, n)

/-- One action (spec/20_memory.md R131). A background step that has nothing to do changes nothing. `setGee` may clear the
enable as well as set it: whether it can be cleared is not in the source (spec/60_exceptions.md R537; DESIGN CHOICE, unsafe:
notes/assumptions/7.md). -/
def act (x : Action) (s : State) : Host.Outcome State Fault Refusal :=
  match x with
  | .command ws => cpuStep s none (runCommand ws s)
  | .load a w => cpuStep s (some (.load a w)) (onNext (cpuLoad a w s) fun t => s.loosen t (a, w))
  | .store a w v => cpuStep s none (onNext (cpuStore a w v s) fun t => s.loosen t (a, w))
  | .accessMore => if s.cpu.rest.isSome then onNext (outcome s.accessMore) fun t => (s.loosen t s.restSpan).endAccess else .next s
  | .readAhead k a n => if k = .drainFill || s.cpuReady || s.midLoad then .next (s.readAhead k a n) else .refused .cpuStopped
  | .evict x => if s.mayEvict x then .next (s.evictFor x) else .refused .cpuStopped
  | .outWord i => .next (s.outWord i)
  | .fetch a => cpuStep s (some (.fetch a)) (onNext (outcome (s.fetchPacket a)) fun t => (s.loosen t (a / 32 * 32, 32)).fetched a)
  | .prefetch a => cpuStep s (some (.prefetch a)) (onNext (outcome (s.prefetchPacket a)) fun t => s.loosen t (a / 32 * 32, 32))
  | .setPriv p => cpuStep s none (.next (s.setCpu { s.cpu with priv := p }))
  | .setIer v => cpuStep s none (.next (s.setCpu { s.cpu with ier := v }))
  | .setGie b => cpuStep s none (.next (s.setCpu { s.cpu with gie := b }))
  | .setGee b => cpuStep s none (.next (s.setCpu { s.cpu with gee := b }))
  | .setRep v => cpuStep s none (.next (s.setCpu { s.cpu with rep := v }))
  | .takeInterrupt k => cpuStep s none (.next (s.takeInterrupt k))
  | .takeException => cpuStep s none (.next s.takeException)
  | .softwareException b => cpuStep s none (.next (s.softwareException b))
  | .idle => cpuStep s none (.next s.enterIdle)
  | .sploop b => cpuStep s none (.next (s.setSploop b))
  | .drainWriteBuffer => .next (s.loosen s.drainOne (0, 0))
  | .drainVictim => .next s.drainVictim
  | .victimWord i => .next (s.victimWord i)
  | .writebackLine set way => .next (s.writebackLine set way)
  | .coherence b i => .next (s.cohStep b i)
  | .coherenceSkip b i => .next (s.cohSkip b i)
  | .coherenceExtra b f => .next (s.cohExtra b f)
  | .idma c => outcome (s.stepIdma c)
  | .arbitrate r qs => .next (s.arbitrate r qs)
  | .sdmaRead id p a n => outcome (s.sdmaRead id p a n)
  | .sdmaWrite id p a bs => outcome (s.sdmaWrite id p a bs)
  | .sdmaMore i => outcome (s.sdmaMore i)
  | .event e => if isPlatformEvent e then .next (s.raise e) else .refused (.noSuchEvent e)
  | .nmi => if s.plat.hasNmi then .next s.nmi else .refused .noNmi
  | .poke a b => poke a b s
  | .busReply r => .next (s.setEmc { s.emc with replies := s.emc.replies ++ [r] })
  | .globalReset => .next s.globalReset
  | .localReset => .next s.localReset

/-- The start of a step: the transactions handed out in the last step are gone (notes/assumptions/22.md). -/
def State.begin (s : State) : State := s.setEmc { s.emc with requests := [] }

/-- One step of the agent whose action stands first in the agenda; with an empty agenda the CPU only samples its inputs. -/
def stepWith (s : State) : Host.Outcome State Fault Refusal :=
  match s.agenda with
  | [] => .next s.begin.sample
  | x :: t => onNext (act x (s.setAgenda t).begin) State.sample

/-- The action that runs an instruction of the opcode table (notes/assumptions/1.md). -/
def tableAction (nbits w : Nat) : Action := .command (tableWords nbits w)

end Sys2Proof.Machine
end

