-- ==== Sys2Proof/Machine/Step.lean ====
section
/-!
DEFINITION. The step of the machine, and the placing of one instruction where the step finds it.
-/
namespace Sys2Proof.Machine

/-- One atomic step of one agent (spec/20_memory.md R131). -/
def step (s : State) : Host.Outcome State Fault Refusal := stepWith s

/-- `s` with the instruction whose bits are `w` as the CPU's next command. -/
def State.withFetchWord (s : State) (nbits w : Nat) : State := s.setAgenda (tableAction nbits w :: s.agenda)

end Sys2Proof.Machine
end

