-- ==== Sys2Proof/Safety.lean ====
section
/-!
DEFINITION. What counts as a safe step, and the invariants the statements use.
-/
namespace Sys2Proof.Machine

/-- A step is safe when it answers a next state: no fault and no refusal. -/
def Safe (s : State) : Prop := ∃ t, step s = .next t

/-- A run of `n` steps is safe when each of them is. -/
def SafeRun : Nat → State → Prop
  | 0, _ => True
  | n + 1, s => ∃ t, step s = .next t ∧ SafeRun n t

/-- No bit outside the mask is set. -/
def onlyBits (mask v : Word) : Bool := v &&& ~~~mask = 0#32

/-- Two address ranges share no address. -/
def disjointSpans (r q : Span) : Bool := r.size = 0 || q.size = 0 || r.base + r.size ≤ q.base || q.base + q.size ≤ r.base

/-- The ranges are pairwise disjoint. -/
def spansDisjoint : List Span → Bool
  | [] => true
  | r :: t => t.all (fun q => disjointSpans r q) && spansDisjoint t

/-- One range lies inside another. -/
def insideSpan (r q : Span) : Bool := q.base ≤ r.base && r.base + r.size ≤ q.base + q.size

/-- A power of 2 below 2 ^ 32. -/
def isPow2 (n : Nat) : Bool := (List.range 32).any fun k => n = 2 ^ k

/-- The constraints on a level 1 memory (spec/00_scope.md R5, the rows of L1P and L1D; the largest cache: spec/40_l1p.md
R178, spec/41_l1d.md R230; spec/70_reset_and_hazards.md R562, R563): `keys` lists the key registers it may have, `mask` the
implemented bits of a page attribute. -/
def l1Legal (p : L1Params) (keys : List (List Nat)) (mask : Word) : Bool :=
  p.base % 0x100000 = 0 && [0, 0x4000, 0x8000, 0x10000, 0x20000, 0x40000, 0x80000].contains p.r0Size &&
  p.r1Size % 0x4000 = 0 && 0x4000 ≤ p.r1Size && p.r1Size ≤ 0x80000 && (p.r0Size = 0 || p.r1Size ≤ p.r0Size) &&
  p.maxCache = (if p.r1Size = 0x4000 then 0x4000 else 0x8000) && (p.modeReset = 0#3 || p.modeReset = 7#3) &&
  p.r0Size ≤ 16 * p.page0 && p.r1Size ≤ 16 * p.page1 && keys.contains p.keyRegs &&
  p.rom.all (fun r => insideSpan r ⟨p.base, p.r0Size + p.r1Size⟩) && p.mppaReset.toList.all (onlyBits mask)

/-- One range follows another, and the two together are the range of that base and size. -/
def shareOut (base size : Nat) (q r : Span) : Bool :=
  q.base = base && r.base = base + q.size && q.size + r.size = size

/-- The sizes of the two power-down pages of a port (spec/42_l2.md R335): each is half a power-of-2 port. Of a port of
another size one page is half a power of 2 next to the size, below or above it, since the rule does not say which power of 2
it means, and the rest is the other page (notes/assumptions/3.md). -/
def pageSizesLegal (size q r : Nat) : Bool :=
  if isPow2 size then 2 * q = size && 2 * r = size
  else [q, r].any fun x => isPow2 x && size < 4 * x && x < size

/-- The two power-down pages of a port share it out, either of them the lower one, which the spec does not say. -/
def pagesLegal (base size : Nat) (q r : Span) : Bool :=
  (shareOut base size q r || shareOut base size r q) && (size = 0 || pageSizesLegal size q.size r.size)

/-- The constraints on the level 2 memory (spec/00_scope.md R5, the `L2_…` rows; spec/90_conflicts.md C11). -/
def l2Legal (p : L2Params) : Bool :=
  0x10000 ≤ p.p0Size && (p.p1Size = 0 || 0x10000 ≤ p.p1Size) && [0x10000, 0x20000, 0x40000].contains p.maxCache &&
  p.maxCache ≤ p.p0Size && (p.maxCache = 0x40000 || p.p0Size < 2 * p.maxCache) &&
  p.cacheRange.all (fun e => insideSpan ⟨e.2, e.1⟩ ⟨p.p0Base, p.p0Size⟩) &&
  p.p0Size ≤ 32 * p.page0 && p.p1Size ≤ 32 * p.page1 && p.keyRegs = [0, 1] &&
  p.rom.all (fun r => insideSpan r ⟨p.p1Base, p.p1Size⟩) && p.mppaReset.toList.all (onlyBits mppaMask) &&
  pagesLegal p.p0Base p.p0Size p.pdPages[0] p.pdPages[1] && pagesLegal p.p1Base p.p1Size p.pdPages[2] p.pdPages[3]

/-- The address ranges that have one owner each: the local memories, the blocks of registers, and external configuration
space (spec/20_memory.md R101). -/
def ownedSpans (p : Platform) : List Span :=
  [⟨p.l1p.base, p.l1p.r0Size + p.l1p.r1Size⟩, ⟨p.l1d.base, p.l1d.r0Size + p.l1d.r1Size⟩, ⟨p.l2.p0Base, p.l2.p0Size⟩,
   ⟨p.l2.p1Base, p.l2.p1Size⟩, ⟨0x01800000, 0x20408⟩, ⟨0x01840000, 0xC068⟩] ++ p.cfgRange

/-- The constraints that the spec puts on the platform parameters (spec/00_scope.md R5, spec/20_memory.md R101). -/
def platLegal (p : Platform) : Bool :=
  l1Legal p.l1p [[0], [0, 1]] mppaMask && l1Legal p.l1d [[0, 1]] l1dMppaMask && l2Legal p.l2 &&
  p.cfgRange.all (fun r => insideSpan r ⟨0x01000000, 0x0F000000⟩) && spansDisjoint (ownedSpans p) &&
  (ownedSpans p).all (fun r => r.base + r.size ≤ topOfMemory) && p.cpuId < 2 ^ p.idWidth

/-- The reserved bits of the page attribute registers read 0 (spec/10_state.md R74 to R76, R99). -/
def State.mppaReserved (s : State) : Bool :=
  platLegal s.plat && s.l1p.mppa.toList.all (onlyBits mppaMask) && s.l1d.mppa.toList.all (onlyBits l1dMppaMask) &&
    s.l2.mppa.toList.all (onlyBits mppaMask)

/-- The event flags of events 0 to 3 are 0 and their masks are 1 (spec/45_intc.md R413, R418, R427). -/
def State.combinedReserved (s : State) : Bool :=
  s.intc.evtFlag[0] &&& combinedBits = 0#32 && s.intc.evtMask[0] &&& combinedBits = combinedBits &&
    s.intc.expMask[0] &&& combinedBits = combinedBits

/-- The reserved bits of the arbitration registers read 0 (spec/10_state.md R56 to R60). -/
def State.bwmReserved (s : State) : Bool :=
  onlyBits cpuarbMask s.bwm.cpuarbd && onlyBits cpuarbMask s.bwm.cpuarbu && onlyBits cpuarbMask s.bwm.cpuarbe &&
  onlyBits maxwaitMask s.bwm.idmaarbd && onlyBits maxwaitMask s.bwm.idmaarbu && onlyBits maxwaitMask s.bwm.idmaarbe &&
  onlyBits maxwaitMask s.bwm.sdmaarbd && onlyBits maxwaitMask s.bwm.sdmaarbu && onlyBits maxwaitMask s.bwm.sdmaarbe &&
  onlyBits maxwaitMask s.bwm.ucarbd && onlyBits maxwaitMask s.bwm.ucarbu && onlyBits mdmaarbMask s.bwm.mdmaarbe

/-- The reserved bits of the IDMA parameter registers read 0 (spec/10_state.md R49 to R51, R55). -/
def State.idmaReserved (s : State) : Bool :=
  onlyBits idma0AddrMask s.idma0.source && onlyBits idma0AddrMask s.idma0.dest && onlyBits idma0CountMask s.idma0.count &&
    onlyBits idma1CountMask s.idma1.count

/-- Only a channel with an active transfer has a pending one (spec/43_idma.md R352, R360). -/
def Chan.queued (x : Chan) : Bool := x.pending.isNone || x.active.isSome

/-- At most one program-initiated coherence operation is in progress (spec/42_l2.md R306, spec/70_reset_and_hazards.md
R576). -/
def State.oneOp (s : State) : Bool :=
  (s.l1p.op.isNone && s.l1d.op.isNone) || (s.l1p.op.isNone && s.l2.op.isNone) || (s.l1d.op.isNone && s.l2.op.isNone)

/-- No two lines stand in one frame: a way of a set holds at most one line (spec/10_state.md R87, R88, R90). -/
def framesDistinct (ls : List Line) : Bool := (ls.map fun l => (l.set, l.way)).Nodup

/-- The invariant of the machine: memory is in canonical form, the hard-wired and reserved bits read as the spec says, the
write buffer holds at most 4 entries, a channel has no pending transfer without an active one, at most one coherence operation
is in progress, and a frame of a cache holds at most one line. -/
structure State.Inv (s : State) : Prop where
  mem      : s.mem.wf = true
  mppa     : s.mppaReserved = true
  combined : s.combinedReserved = true
  bwm      : s.bwmReserved = true
  idma     : s.idmaReserved = true
  wbuf     : s.l1d.wbuf.length ≤ 4
  queue0   : s.idma0.queued = true
  queue1   : s.idma1.queued = true
  oneOp    : s.oneOp = true
  frames   : ∀ x, framesDistinct (s.linesOf x) = true

/-- The state that only supervisor code may write by a register command (spec/60_exceptions.md R542 (2)). -/
structure Supervised where
  l1pMode  : BitVec 3
  l1dMode  : BitVec 3
  l2Mode   : BitVec 3
  l2cc     : Bool
  mar      : Vector Bool 256
  l1pMppa  : Vector Word 32
  l1dMppa  : Vector Word 32
  l2Mppa   : Vector Word 64
  lockL1P  : Lock
  lockL1D  : Lock
  lockL2   : Lock
  bwm      : Bwm
  evtMask  : Vector Word 4
  expMask  : Vector Word 4
  intMux   : Vector Word 3
  intXStat : Word
  intDMask : Word
  aegMux   : Vector Word 2
  megpd    : Bool
  deriving DecidableEq, Repr

/-- The supervisor-only state of a state. -/
def State.supervised (s : State) : Supervised :=
  { l1pMode := s.l1p.mode, l1dMode := s.l1d.mode, l2Mode := s.l2.mode, l2cc := s.l2.cc, mar := s.l2.mar
    l1pMppa := s.l1p.mppa, l1dMppa := s.l1d.mppa, l2Mppa := s.l2.mppa
    lockL1P := s.mpL1P.lock, lockL1D := s.mpL1D.lock, lockL2 := s.mpL2.lock, bwm := s.bwm
    evtMask := s.intc.evtMask, expMask := s.intc.expMask, intMux := s.intc.intMux, intXStat := s.intc.intXStat
    intDMask := s.intc.intDMask, aegMux := s.intc.aegMux, megpd := s.pdc.megpd }

/-! ### The fairness assumption on the scheduler (spec/44_bwm.md R400, spec/92_eei_decisions.md D3, notes/assumptions/1.md) -/

/-- The agents whose interleaving the scheduler chooses (spec/44_bwm.md R400, spec/92_eei_decisions.md D3): the CPU, the IDMA
channels, a master of slave DMA by its ID, the coherence engines, and the buffers of L1D. -/
inductive Agent
  | cpu
  | idma (c : Fin 2)
  | sdma (id : Nat)
  | coherence (b : Block)
  | buffers
  deriving DecidableEq, Repr

/-- The agent for which an action is a step in this state: none for an action that finds nothing to do, and none for a reset,
an input, the arbiter, and what a controller may do of its own accord. -/
def State.stepOf (s : State) : Action → Option Agent
  | .command _ | .load .. | .store .. | .fetch _ | .setPriv _ | .setIer _ | .setGie _ | .setGee _ | .setRep _ | .takeInterrupt _
  | .takeException | .softwareException _ | .idle | .sploop _ => if s.cpuReady then some .cpu else none
  | .accessMore => if s.cpu.rest.isSome then some .cpu else none
  | .idma c => if (s.chan c).active.isSome then some (.idma c) else none
  | .sdmaMore i => (s.emc.bursts[i]?).map fun b => .sdma b.id
  | .coherence b i =>
    match s.opOf b with
    | none => none
    | some o =>
      if (o.todo[i]?).isSome || o.todo.isEmpty || (!o.l2Listed && o.todo.all fun g => g.cache ≠ .l1d) then some (.coherence b)
      else none
  | .drainWriteBuffer => if s.l1d.victim.isSome || !s.l1d.wbuf.isEmpty then some .buffers else none
  | .drainVictim => if s.l1d.victim.isSome then some .buffers else none
  | .readAhead .. | .evict _ | .outWord _ | .victimWord _ | .prefetch _ | .writebackLine .. | .coherenceSkip .. | .coherenceExtra ..
  | .arbitrate .. | .sdmaRead .. | .sdmaWrite .. | .event _ | .nmi | .poke .. | .busReply _ | .globalReset | .localReset => none

/-- The agent has a step to take. -/
def State.ready (s : State) : Agent → Bool
  | .cpu => s.cpuReady || s.cpu.rest.isSome
  | .idma c => (s.chan c).active.isSome
  | .sdma id => s.emc.bursts.any fun b => b.id = id
  | .coherence b => (s.opOf b).isSome
  | .buffers => s.l1d.victim.isSome || !s.l1d.wbuf.isEmpty

/-- The resource at which a slave DMA access to an address contends. -/
def State.resourceOf (s : State) (a : Nat) : Resource :=
  match s.region a with
  | .l1pRam | .l1pCacheArea => .l1p
  | .l1dRam | .l1dCacheArea => .l1d
  | .l2Ram | .l2CacheArea | .external => .l2
  | .intReg | .extCfg | .intUnlisted => .emc

/-- A request is promised a grant at a resource: its `MAXWAIT` there is one of the defined values that are not 0
(spec/44_bwm.md R395, R400). -/
def State.promisedAt (s : State) (q : Request) (x : Resource) : Bool :=
  let w := field (s.bwm.arbReg x q) 0 6
  legalWaits.contains w && w ≠ 0

/-- The agent is promised a step. A coherence operation, an IDMA transfer and a buffered write always are, as operations that
have started (spec/92_eei_decisions.md D3, spec/43_idma.md R371). The CPU is where it is promised a grant at every resource,
since any may be the one of its next access, and a slave DMA master where it is at the EMC and at the memory of each of its
accesses (spec/44_bwm.md R400). -/
def State.promised (s : State) : Agent → Bool
  | .idma _ | .coherence _ | .buffers => true
  | .cpu => [Resource.l1p, .l1d, .l2, .emc].all fun x => s.promisedAt .cpu x
  | .sdma id => s.promisedAt (.sdma 0) .emc &&
    s.emc.bursts.all fun b => b.id ≠ id || s.promisedAt (.sdma 0) (s.resourceOf b.addr)

/-- The state after the first `n` actions of a schedule; none once one of them faulted or was refused. -/
def trace (schedule : Nat → Action) (s : State) : Nat → Option State
  | 0 => some s
  | n + 1 =>
    match trace schedule s n with
    | none => none
    | some t =>
      match step (t.setAgenda [schedule n]) with
      | .next u => some u
      | _ => none

/-- The scheduler is fair from `s`: an agent that from some action on is always ready, and promised a step, takes one, unless
the run stops. Each IDMA channel and each slave DMA master is promised its own steps, not only the class of its requests
(DESIGN CHOICE, unsafe: notes/assumptions/1.md). -/
def FairSchedule (schedule : Nat → Action) (s : State) : Prop :=
  ∀ x n, (∀ m, n ≤ m → ∃ t, trace schedule s m = some t ∧ t.ready x = true ∧ t.promised x = true) →
    ∃ m t, n ≤ m ∧ trace schedule s m = some t ∧ t.stepOf (schedule m) = some x

/-- The arbitration cycles at a resource one after the other, each with the requests it finds pending. -/
def State.cycles (s : State) (x : Resource) : List (List Request) → State
  | [] => s
  | qs :: t => (s.arbitrate x qs).cycles x t

/-- The winner of each of those cycles. -/
def State.winners (s : State) (x : Resource) : List (List Request) → List (Option Request)
  | [] => []
  | qs :: t => s.winner x qs :: (s.arbitrate x qs).winners x t

/-- Bounded waiting at a resource: a request whose `MAXWAIT` is one of the defined non-zero values wins at least one of any
`MAXWAIT + 1` cycles in which it is pending. It is an assumption on the cycles: the order among requests of equal effective
priority is the scheduler's (spec/91_not_in_source.md N45), and an order that always puts `q` last does not meet it. That the
promise is made to each request, and not to the class whose requests share one counter and one `MAXWAIT`, is the model's choice
(DESIGN CHOICE, unsafe: notes/assumptions/1.md): the counter alone does not give it to channel 1 of IDMA beside an always
pending channel 0, nor to the lower of two SDMA priorities. -/
def BoundedWait (x : Resource) (cycles : List (List Request)) (s : State) : Prop :=
  ∀ q front part back, cycles = front ++ part ++ back → (∀ qs ∈ part, q ∈ qs) →
    (∀ w, w = field (s.bwm.arbReg x q) 0 6 → w ∈ legalWaits → w ≠ 0 → part.length = w + 1 →
      some q ∈ (s.cycles x front).winners x part)

/-! ### Terms of the statements -/

/-- Register commands carried out one after the other. -/
def runCommands : List Instr → State → Host.Outcome State Fault Refusal
  | [], s => .next s
  | i :: t, s =>
    match exec i s with
    | .next u => runCommands t u
    | .fault f => .fault f
    | .refused r => .refused r

/-- The registers whose writes may move data between the caches and memory: the coherence registers and the three cache
configuration registers (spec/40_l1p.md R179 to R187, spec/41_l1d.md R231 to R244, spec/42_l2.md R296 to R314). -/
def cacheRegs : List Reg :=
  [.l1pcfg, .l1dcfg, .l2cfg, .l1pinv, .l1pibar, .l1piwc, .l1dinv, .l1dwb, .l1dwbinv, .l1dwibar, .l1dwiwc, .l1dwbar, .l1dwwc,
   .l1dibar, .l1diwc, .l2wb, .l2wbinv, .l2inv, .l2wbar, .l2wwc, .l2wibar, .l2wiwc, .l2ibar, .l2iwc]

/-- The command is a write of one of `cacheRegs`. -/
def movesCacheData (i : Instr) : Prop := ∃ r ∈ cacheRegs, ∃ v, i = r.write v

/-- What a command that moves no cache data leaves alone: every byte of memory, every cache line, the buffers of L1D, the
CPU, the platform and the agenda. -/
structure KeepsData (s t : State) : Prop where
  bytes  : ∀ a, t.mem.read a = s.mem.read a
  l1p    : t.l1p.lines = s.l1p.lines
  l1d    : t.l1d.lines = s.l1d.lines
  wbuf   : t.l1d.wbuf = s.l1d.wbuf
  victim : t.l1d.victim = s.l1d.victim
  l2     : t.l2.lines = s.l2.lines
  cpu    : t.cpu = s.cpu
  plat   : t.plat = s.plat
  agenda : t.agenda = s.agenda

end Sys2Proof.Machine
end

