-- ==== Sys2Proof/Certificates/Slice0/Obligations.lean ====
section
/-!
DEFINITION. The statements for the provers. OBLIGATIONS.json lists them.
-/
open Sys2Proof Sys2Proof.Machine

/-! ### Encoding -/

/-- The words written out from the addresses of spec/30_encoding.md R153 and R154 decode to the commands they stand for, and
a misaligned address and an address without a register are rejected, on a device with `AEGMUX0` at its printed address; on
the other device `AEGMUX1` answers at 0180 0144h (spec/90_conflicts.md C24; container: notes/assumptions/1.md). -/
def Obligations.DecodeSampleWords : Prop :=
  decode [0x01800020#32, 1#32, 0x2000#32] = .ok (.evtsetWrite 0 0x2000#32) ∧
  decode [0x018000EC#32, 0#32, 0#32] = .ok (.mexpflagRead 3) ∧
  decode [0x0180010C#32, 1#32, 0x0706030E#32] = .ok (.intmuxWrite 3 0x0706030E#32) ∧
  decode [0x01810144#32, 0#32, 0#32] = .ok (.aegmuxRead 1) ∧
  decode [0x01810000#32, 1#32, 0x10000#32] = .ok (.pdccmdWrite 0x10000#32) ∧
  decode [0x01820404#32, 1#32, 1#32] = .ok (.buserrclrWrite 1#32) ∧
  decode [0x01820110#32, 1#32, 0xF0000100#32] = .ok (.idma1CountWrite 0xF0000100#32) ∧
  decode [0x01841000#32, 1#32, 0x00020004#32] = .ok (.cpuarbuWrite 0x00020004#32) ∧
  decode [0x01840024#32, 1#32, 1#32] = .ok (.l1pccWrite 1#32) ∧
  decode [0x01845048#32, 0#32, 0#32] = .ok .l1dinvRead ∧
  decode [0x018483FC#32, 1#32, 1#32] = .ok (.marWrite 255 1#32) ∧
  decode [0x0184A2FC#32, 0#32, 0#32] = .ok (.l2mppaRead 63) ∧
  decode [0x0184AD0C#32, 1#32, 4#32] = .ok (.l1dmplkWrite 3 4#32) ∧
  decode [0x01840021#32, 0#32, 0#32] = .error .misaligned ∧
  decode [0x01800100#32, 0#32, 0#32] = .error .unlistedRegister ∧
  decodeOn .inOrder [0x01800144#32, 0#32, 0#32] = .ok (.aegmuxRead 1) ∧
  decodeOn .inOrder [0x01810144#32, 0#32, 0#32] = .error .unlistedRegister

/-- Decoding the words of a well-formed instruction gives the instruction back, with every operand at every value, at either
address of `AEGMUX0`. -/
def Obligations.DecodeOfEncode : Prop :=
  ∀ (b : AegmuxBase) (i : Instr), i.wellFormed = true → decodeOn b (encodeOn b i) = .ok i

/-- What decodes is well-formed, and its words are those it is encoded with: each instruction has one spelling, at either
address of `AEGMUX0`. -/
def Obligations.EncodeOfDecode : Prop :=
  ∀ (b : AegmuxBase) (ws : List Word) (i : Instr), decodeOn b ws = .ok i → i.wellFormed = true ∧ encodeOn b i = ws

/-- When the next action is a command of a CPU that issues accesses and has none under way, and its words decode to `i` on
this device, the step is `i` carried out on the state with that action taken off, followed by the end of the access and the
sampling of the CPU's inputs (notes/assumptions/1.md, 10.md, 11.md). -/
def Obligations.StepRunsDecodedCommand : Prop :=
  ∀ (s : State) (ws : List Word) (i : Instr) (rest : List Action),
    s.agenda = .command ws :: rest → s.mayIssue none = true → decodeOn s.plat.aegmuxBase ws = .ok i →
    step s = onNext (exec i (s.setAgenda rest).begin) fun t => t.endAccess.sample

/-- An aligned 32-bit CPU load or store at the address of a register is that register's command. -/
def Obligations.RegisterAccessIsItsCommand : Prop :=
  ∀ (s : State) (a : Nat) (r : Reg), Reg.ofAddrOn s.plat.aegmuxBase a = some r →
    r.addrOn s.plat.aegmuxBase = a ∧ cpuLoad a 4 s = exec r.read s ∧
      ∀ v : BitVec 64, cpuStore a 4 v s = exec (r.write (v.setWidth 32)) s

/-! ### Reads -/

/-- Every read of an interrupt controller register but `MEVTFLAGn` (`MaskedEventFlagsRead`) answers its value and changes
nothing but the reply. There is no selector register 0: its command is refused. That the write-only `EVTSETn`, `EVTCLRn` and
`INTXCLR` read 0 is the spec's decision (spec/92_eei_decisions.md D19; spec/45_intc.md R414, R415, R431). -/
def Obligations.IntcReadsAnswer : Prop :=
  ∀ (s : State) (n : Fin 4),
    exec (.evtflagRead n) s = .next { s with reply := .word s.intc.evtFlag[n] } ∧
    exec (.evtsetRead n) s = .next { s with reply := .word 0#32 } ∧
    exec (.evtclrRead n) s = .next { s with reply := .word 0#32 } ∧
    exec (.evtmaskRead n) s = .next { s with reply := .word s.intc.evtMask[n] } ∧
    exec (.expmaskRead n) s = .next { s with reply := .word s.intc.expMask[n] } ∧
    exec (.mexpflagRead n) s = .next { s with reply := .word (s.intc.evtFlag[n] &&& ~~~s.intc.expMask[n]) } ∧
    (∀ m : Fin 3, exec (.intmuxRead m.succ) s = .next { s with reply := .word s.intc.intMux[m] }) ∧
    exec (.intmuxRead 0) s = .refused (.noSuchRegister 0x01800100) ∧
    exec .intxstatRead s = .next { s with reply := .word s.intc.intXStat } ∧
    exec .intxclrRead s = .next { s with reply := .word 0#32 } ∧
    exec .intdmaskRead s = .next { s with reply := .word s.intc.intDMask } ∧
    (∀ m : Fin 2, s.plat.hasAet = true → exec (.aegmuxRead m) s = .next { s with reply := .word s.intc.aegMux[m] })

/-- `MEVTFLAGn` reads the flags that are enabled in the mask, in both privileges and without a side effect (spec/45_intc.md
R419), and it is read-only: a write that the privilege check allows changes nothing (R431, spec/92_eei_decisions.md D14;
notes/assumptions/15.md). -/
def Obligations.MaskedEventFlagsRead : Prop :=
  ∀ (s : State) (n : Fin 4),
    exec (.mevtflagRead n) s = .next { s with reply := .word (s.intc.evtFlag[n] &&& ~~~s.intc.evtMask[n]) } ∧
    (∀ i : Fin 32, (s.intc.evtFlag[n] &&& ~~~s.intc.evtMask[n]).getLsbD i =
      if s.intc.evtMask[n].getLsbD i = false then s.intc.evtFlag[n].getLsbD i else false) ∧
    ∀ v, s.mayWrite = true → exec (.mevtflagWrite n v) s = .next { s with reply := .none }

/-- Every read of an IDMA or miscellaneous register answers its value and changes nothing but the reply (that `BUSERRCLR`
reads 0: spec/92_eei_decisions.md D19; that the source and destination of channel 1 read back: D18). -/
def Obligations.IdmaAndMiscReadsAnswer : Prop :=
  ∀ s : State,
    (∃ w : Word, exec .idma0StatRead s = .next { s with reply := .word w } ∧
      ∀ i : Nat, w.getLsbD i = ((decide (i = 1) && s.idma0.pending.isSome) || (decide (i = 0) && s.idma0.active.isSome))) ∧
    (∃ w : Word, exec .idma1StatRead s = .next { s with reply := .word w } ∧
      ∀ i : Nat, w.getLsbD i = ((decide (i = 1) && s.idma1.pending.isSome) || (decide (i = 0) && s.idma1.active.isSome))) ∧
    exec .idma0MaskRead s = .next { s with reply := .word s.idma0.mask } ∧
    exec .idma0SourceRead s = .next { s with reply := .word s.idma0.source } ∧
    exec .idma0DestRead s = .next { s with reply := .word s.idma0.dest } ∧
    exec .idma0CountRead s = .next { s with reply := .word s.idma0.count } ∧
    exec .idma1SourceRead s = .next { s with reply := .word s.idma1.source } ∧
    exec .idma1DestRead s = .next { s with reply := .word s.idma1.dest } ∧
    exec .idma1CountRead s = .next { s with reply := .word s.idma1.count } ∧
    exec .mmRevidRead s = .next { s with reply := .word (s.plat.revId.setWidth 32) } ∧
    exec .buserrRead s = .next { s with reply := .word s.emc.busErr } ∧
    exec .buserrclrRead s = .next { s with reply := .word 0#32 }

/-- Every read of a cache control register of L1P or L1D answers: the mode last written, the two freeze bits, bit 0 of a
running global operation, a free value for a base address register, and for a word count 0 unless its operation runs, when
it is a count that is not 0 and fits in 16 bits (free values: notes/assumptions/6.md, 36.md). -/
def Obligations.L1CacheReadsAnswer : Prop :=
  ∀ s : State,
    exec .l1pcfgRead s = .next { s with reply := .word (s.l1p.mode.setWidth 32) } ∧
    exec .l1dcfgRead s = .next { s with reply := .word (s.l1d.mode.setWidth 32) } ∧
    (∃ w : Word, exec .l1pccRead s = .next { s with reply := .word w } ∧
      ∀ i : Nat, w.getLsbD i = ((decide (i = 16) && s.l1p.poper) || (decide (i = 0) && s.l1p.oper))) ∧
    (∃ w : Word, exec .l1dccRead s = .next { s with reply := .word w } ∧
      ∀ i : Nat, w.getLsbD i = ((decide (i = 16) && s.l1d.poper) || (decide (i = 0) && s.l1d.oper))) ∧
    (∀ i r, (i, r) ∈ [(Instr.l1pinvRead, CohReg.l1pinv), (.l1dinvRead, .l1dinv), (.l1dwbRead, .l1dwb), (.l1dwbinvRead, .l1dwbinv)] →
      exec i s = .next { s with reply := .word (if (s.opOf (cohBlock r)).map CohOp.reg = some r then 1#32 else 0#32) }) ∧
    (∀ i ∈ [Instr.l1pibarRead, .l1dwibarRead, .l1dwbarRead, .l1dibarRead],
      exec i s = .next { s with reply := .word (Config.freeWord s.free), free := s.free + 1 }) ∧
    (∀ i r, (i, r) ∈ [(Instr.l1piwcRead, CohReg.l1piwc), (.l1dwiwcRead, .l1dwiwc), (.l1dwwcRead, .l1dwwc), (.l1diwcRead, .l1diwc)] →
      ((s.opOf (cohBlock r)).map CohOp.reg ≠ some r → exec i s = .next { s with reply := .word 0#32 }) ∧
      ∀ o, s.opOf (cohBlock r) = some o → o.reg = r → 0 < o.words → o.words < 0x10000 →
        ∃ w : Word, w ≠ 0#32 ∧ w.toNat < 0x10000 ∧ exec i s = .next { s with reply := .word w, free := s.free + 1 })

/-- Every read of an L2 register answers, `MAR0` as 1 and `MAR1` to `MAR15` as 0 whatever is stored; only the reply, and the
free-value counter of a base address register or a running word count, changes. A base address register reads a free value
(spec/93_implementation_defined.md U5; notes/assumptions/6.md), a running word count a free one that is not 0
(spec/92_eei_decisions.md D4; notes/assumptions/36.md), and `L2PDWAKEn` and `L2PDSLEEPn` read 0 (D19). -/
def Obligations.L2ReadsAnswer : Prop :=
  ∀ s : State,
    (∃ w : Word, exec .l2cfgRead s = .next { s with reply := .word w } ∧
      w.toNat = s.plat.l2.numMM.toNat * 2 ^ 24 + s.plat.l2.mmid.toNat * 2 ^ 16 + s.l2.cc.toNat * 2 ^ 3 + s.l2.mode.toNat) ∧
    (∀ i r, (i, r) ∈ [(Instr.l2wbRead, CohReg.l2wb), (.l2wbinvRead, .l2wbinv), (.l2invRead, .l2inv)] →
      exec i s = .next { s with reply := .word (if (s.opOf (cohBlock r)).map CohOp.reg = some r then 1#32 else 0#32) }) ∧
    (∀ i ∈ [Instr.l2wbarRead, .l2wibarRead, .l2ibarRead],
      exec i s = .next { s with reply := .word (Config.freeWord s.free), free := s.free + 1 }) ∧
    (∀ i r, (i, r) ∈ [(Instr.l2wwcRead, CohReg.l2wwc), (.l2wiwcRead, .l2wiwc), (.l2iwcRead, .l2iwc)] →
      ((s.opOf (cohBlock r)).map CohOp.reg ≠ some r → exec i s = .next { s with reply := .word 0#32 }) ∧
      ∀ o, s.opOf (cohBlock r) = some o → o.reg = r → 0 < o.words → o.words < 0x10000 →
        ∃ w : Word, w ≠ 0#32 ∧ w.toNat < 0x10000 ∧ exec i s = .next { s with reply := .word w, free := s.free + 1 }) ∧
    exec (.marRead 0) s = .next { s with reply := .word 1#32 } ∧
    (∀ n : Fin 256, 1 ≤ n.val → n.val ≤ 15 → exec (.marRead n) s = .next { s with reply := .word 0#32 }) ∧
    (∀ n : Fin 256, 16 ≤ n.val →
      exec (.marRead n) s = .next { s with reply := .word (if s.l2.mar[n] then 1#32 else 0#32) }) ∧
    (∀ n : Fin 2, exec (.l2pdwakeRead n) s = .next { s with reply := .word 0#32 } ∧
      exec (.l2pdsleepRead n) s = .next { s with reply := .word 0#32 } ∧
      ∃ w : Word, exec (.l2pdstatRead n) s = .next { s with reply := .word w } ∧
        ∀ i : Nat, w.getLsbD i = ((decide (i = 1) && s.l2.sleep[2 * n.val + 1]) || (decide (i = 0) && s.l2.sleep[2 * n.val])))

/-- Every read of a memory protection register answers, where the device has memory protection (one that has none refuses
them: `AbsentRegistersAreRefused`): the fault address unless it is still indeterminate (then a free value,
spec/93_implementation_defined.md U19; notes/assumptions/5.md, 6.md), the fault status, the lock state, the page attributes,
and 0 for the registers that hold nothing (spec/92_eei_decisions.md D7). -/
def Obligations.ProtectionReadsAnswer : Prop :=
  ∀ s : State, s.plat.hasMp = true →
    (∀ i x, (i, x) ∈ [(Instr.l1pmpfarRead, Block.l1p), (.l1dmpfarRead, .l1d), (.l2mpfarRead, .l2)] →
      exec i s = if (s.mp x).farKnown then .next { s with reply := .word (s.mp x).far }
        else .next { s with reply := .word (Config.freeWord s.free), free := s.free + 1 }) ∧
    (∀ i x, (i, x) ∈ [(Instr.l1pmpfsrRead, Block.l1p), (.l1dmpfsrRead, .l1d), (.l2mpfsrRead, .l2)] →
      exec i s = .next { s with reply := .word (s.mp x).fsr }) ∧
    (∀ i x, (i, x) ∈ [(Instr.l1pmplkstatRead, Block.l1p), (.l1dmplkstatRead, .l1d), (.l2mplkstatRead, .l2)] →
      exec i s = .next { s with reply := .word (if (s.mp x).lock.lk then 1#32 else 0#32) }) ∧
    (∀ i ∈ [Instr.l1pmpfcrRead, .l1dmpfcrRead, .l2mpfcrRead, .l1pmplkcmdRead, .l1dmplkcmdRead, .l2mplkcmdRead],
      exec i s = .next { s with reply := .word 0#32 }) ∧
    (∀ n : Fin 4, ∀ i ∈ [Instr.l1pmplkRead n, .l1dmplkRead n, .l2mplkRead n],
      exec i s = .next { s with reply := .word 0#32 }) ∧
    (∀ n : Fin 32, exec (.l1pmppaRead n) s = .next { s with reply := .word s.l1p.mppa[n] }) ∧
    (∀ n : Fin 32, exec (.l1dmppaRead n) s = .next { s with reply := .word s.l1d.mppa[n] }) ∧
    (∀ n : Fin 64, exec (.l2mppaRead n) s = .next { s with reply := .word s.l2.mppa[n] })

/-! ### Writes of the interrupt controller, the power-down controller and the bus error registers -/

/-- A write of an interrupt controller register that the privilege check allows. `EVTSETn` sets and pulses the events of its
1 bits and `EVTCLRn` clears them, the masks and selectors take the value with the bits of events 0 to 3 and the reserved bits
fixed, and a write of a read-only register is ignored (the pulse: spec/92_eei_decisions.md D20; bits 3 to 0 of `EXPMASK0`:
D23; the read-only registers: D14, notes/assumptions/15.md). -/
def Obligations.IntcWritesTakeEffect : Prop :=
  ∀ (s : State) (n : Fin 4) (v : Word), s.mayWrite = true →
    (∃ t, exec (.evtsetWrite n v) s = .next { s with intc := t, reply := .none } ∧
      t = { s.intc with evtFlag := t.evtFlag, pulses := t.pulses } ∧
      (∀ m : Fin 4, t.evtFlag[m] = if m = n then s.intc.evtFlag[m] ||| (if n = 0 then v &&& 0xFFFFFFF0#32 else v)
        else s.intc.evtFlag[m]) ∧
      ∀ e, e ∈ t.pulses ↔ e ∈ s.intc.pulses ∨ (4 ≤ e ∧ e / 32 = n.val ∧ v.getLsbD (e % 32) = true)) ∧
    exec (.evtclrWrite n v) s =
      .next { s with intc := { s.intc with evtFlag := s.intc.evtFlag.set n (s.intc.evtFlag[n] &&& ~~~v) }, reply := .none } ∧
    exec (.evtmaskWrite n v) s = .next { s with intc := { s.intc with
      evtMask := s.intc.evtMask.set n (if n = 0 then v ||| 0x0000000F#32 else v) }, reply := .none } ∧
    exec (.expmaskWrite n v) s = .next { s with intc := { s.intc with
      expMask := s.intc.expMask.set n (if n = 0 then v ||| 0x0000000F#32 else v) }, reply := .none } ∧
    (∀ m : Fin 3, exec (.intmuxWrite m.succ v) s =
      .next { s with intc := { s.intc with intMux := s.intc.intMux.set m (v &&& 0x7F7F7F7F#32) }, reply := .none }) ∧
    exec (.intmuxWrite 0 v) s = .refused (.noSuchRegister 0x01800100) ∧
    exec (.intxclrWrite v) s =
      .next { s with intc := { s.intc with intXStat := if v.getLsbD 0 then 0#32 else s.intc.intXStat }, reply := .none } ∧
    exec (.intdmaskWrite v) s =
      .next { s with intc := { s.intc with intDMask := v &&& 0x0000FFF0#32 }, reply := .none } ∧
    (∀ m : Fin 2, s.plat.hasAet = true → exec (.aegmuxWrite m v) s =
      .next { s with intc := { s.intc with aegMux := s.intc.aegMux.set m v }, reply := .none }) ∧
    exec (.evtflagWrite n v) s = .next { s with reply := .none } ∧
    exec (.mevtflagWrite n v) s = .next { s with reply := .none } ∧
    exec (.mexpflagWrite n v) s = .next { s with reply := .none } ∧
    exec (.intxstatWrite v) s = .next { s with reply := .none }

/-- `PDCCMD`: a write that the privilege check allows changes only `MEGPD`, any other is refused (spec/60_exceptions.md
R528, spec/92_eei_decisions.md D1), the read gives `MEGPD` over sixteen ones, 0000 FFFFh after reset, and the bit decides
what entering `IDLE` does (spec/47_pdc_misc.md R503, R505; notes/assumptions/20.md). The check fails for user code on a
device with memory protection (spec/00_scope.md R5, `HAS_MP`). -/
def Obligations.PdccmdHoldsMegpd : Prop :=
  (∀ (s : State) (v : Word),
    (s.mayWrite = false ↔ s.plat.hasMp = true ∧ s.cpu.priv = .user) ∧
    (s.mayWrite = true →
      exec (.pdccmdWrite v) s = .next { s with pdc := { s.pdc with megpd := v.getLsbD 16 }, reply := .none }) ∧
    (s.mayWrite = false →
      exec (.pdccmdWrite v) s = .next ((s.registerPermissionFault .other 0x01810000).setReply .none)) ∧
    exec .pdccmdRead s = .next { s with reply := .word (if s.pdc.megpd then 0x0001FFFF#32 else 0x0000FFFF#32) } ∧
    s.enterIdle.cpu = { s.cpu with idle := true, running := if s.pdc.megpd then false else s.cpu.running } ∧
    s.enterIdle.pdc = if s.pdc.megpd then
      { s.pdc with mmAsleep := true, l1pAsleep := true, l1dAsleep := true, l2Asleep := true } else s.pdc) ∧
  exec .pdccmdRead State.reset = .next { State.reset with reply := .word 0x0000FFFF#32 }

/-- `BUSERRCLR` bit 0 clears `BUSERR` where the privilege check allows the write, and writes of the read-only
miscellaneous and IDMA status registers are ignored in both privileges (spec/92_eei_decisions.md D14, D25;
notes/assumptions/15.md). -/
def Obligations.MiscWritesTakeEffect : Prop :=
  ∀ (s : State) (v : Word),
    (s.mayWrite = true → exec (.buserrclrWrite v) s =
      .next { s with emc := { s.emc with busErr := if v.getLsbD 0 then 0#32 else s.emc.busErr }, reply := .none }) ∧
    exec (.buserrWrite v) s = .next { s with reply := .none } ∧
    exec (.mmRevidWrite v) s = .next { s with reply := .none } ∧
    exec (.idma0StatWrite v) s = .next { s with reply := .none } ∧
    exec (.idma1StatWrite v) s = .next { s with reply := .none }

/-! ### Bandwidth management -/

/-- Every arbitration register: a write that the privilege check allows stores the implemented fields, any other is refused
with the fault of the block that owns the register (spec/60_exceptions.md R528, spec/92_eei_decisions.md D1), and the read
gives the register, with every reserved bit 0 in a state in which no reserved bit is set (`State.bwmReserved`, which every
step keeps). -/
def Obligations.ArbitrationRegistersHoldTheirFields : Prop :=
  ∀ (s : State) (v : Word),
    (s.mayWrite = true →
      exec (.cpuarbdWrite v) s = .next { s with bwm := { s.bwm with cpuarbd := v &&& 0x0007003F#32 }, reply := .none } ∧
      exec (.cpuarbuWrite v) s = .next { s with bwm := { s.bwm with cpuarbu := v &&& 0x0007003F#32 }, reply := .none } ∧
      exec (.cpuarbeWrite v) s = .next { s with bwm := { s.bwm with cpuarbe := v &&& 0x0007003F#32 }, reply := .none } ∧
      exec (.idmaarbdWrite v) s = .next { s with bwm := { s.bwm with idmaarbd := v &&& 0x0000003F#32 }, reply := .none } ∧
      exec (.idmaarbuWrite v) s = .next { s with bwm := { s.bwm with idmaarbu := v &&& 0x0000003F#32 }, reply := .none } ∧
      exec (.idmaarbeWrite v) s = .next { s with bwm := { s.bwm with idmaarbe := v &&& 0x0000003F#32 }, reply := .none } ∧
      exec (.sdmaarbdWrite v) s = .next { s with bwm := { s.bwm with sdmaarbd := v &&& 0x0000003F#32 }, reply := .none } ∧
      exec (.sdmaarbuWrite v) s = .next { s with bwm := { s.bwm with sdmaarbu := v &&& 0x0000003F#32 }, reply := .none } ∧
      exec (.sdmaarbeWrite v) s = .next { s with bwm := { s.bwm with sdmaarbe := v &&& 0x0000003F#32 }, reply := .none } ∧
      exec (.ucarbdWrite v) s = .next { s with bwm := { s.bwm with ucarbd := v &&& 0x0000003F#32 }, reply := .none } ∧
      exec (.ucarbuWrite v) s = .next { s with bwm := { s.bwm with ucarbu := v &&& 0x0000003F#32 }, reply := .none } ∧
      exec (.mdmaarbeWrite v) s = .next { s with bwm := { s.bwm with mdmaarbe := v &&& 0x00070000#32 }, reply := .none }) ∧
    (s.mayWrite = false →
      (∀ i a, (i, a) ∈ [(Instr.cpuarbdWrite v, 0x01841040), (.idmaarbdWrite v, 0x01841044), (.sdmaarbdWrite v, 0x01841048),
          (.ucarbdWrite v, 0x0184104C)] → exec i s = .next ((s.registerPermissionFault (.block .l1d) a).setReply .none)) ∧
      (∀ i a, (i, a) ∈ [(Instr.cpuarbuWrite v, 0x01841000), (.idmaarbuWrite v, 0x01841004), (.sdmaarbuWrite v, 0x01841008),
          (.ucarbuWrite v, 0x0184100C)] → exec i s = .next ((s.registerPermissionFault (.block .l2) a).setReply .none)) ∧
      (∀ i a, (i, a) ∈ [(Instr.cpuarbeWrite v, 0x01820200), (.idmaarbeWrite v, 0x01820204), (.sdmaarbeWrite v, 0x01820208),
          (.mdmaarbeWrite v, 0x0182020C)] → exec i s = .next ((s.registerPermissionFault .other a).setReply .none))) ∧
    (∀ i w m, (i, w, m) ∈ [(Instr.cpuarbdRead, s.bwm.cpuarbd, 0x0007003F#32), (.cpuarbuRead, s.bwm.cpuarbu, 0x0007003F#32),
        (.cpuarbeRead, s.bwm.cpuarbe, 0x0007003F#32), (.idmaarbdRead, s.bwm.idmaarbd, 0x3F#32),
        (.idmaarbuRead, s.bwm.idmaarbu, 0x3F#32), (.idmaarbeRead, s.bwm.idmaarbe, 0x3F#32),
        (.sdmaarbdRead, s.bwm.sdmaarbd, 0x3F#32), (.sdmaarbuRead, s.bwm.sdmaarbu, 0x3F#32),
        (.sdmaarbeRead, s.bwm.sdmaarbe, 0x3F#32), (.ucarbdRead, s.bwm.ucarbd, 0x3F#32), (.ucarbuRead, s.bwm.ucarbu, 0x3F#32),
        (.mdmaarbeRead, s.bwm.mdmaarbe, 0x00070000#32)] →
      exec i s = .next { s with reply := .word w } ∧ (s.bwmReserved = true → w &&& ~~~m = 0#32))

/-- One arbitration cycle (spec/44_bwm.md R393 to R396). Each requestor declares its priority as the table says. A request
whose counter has reached its non-zero MAXWAIT counts as -1, any other as the priority it declares; the winner has the lowest
of these, its class's counter is cleared, every other pending class's counter rises by one, and the counters of the other
resources and the rest of the machine stay. A defined MAXWAIT is the wait itself; a reserved one, and the fixed management of
L1P for a requestor other than the CPU, is some defined wait (spec/93_implementation_defined.md U16; the model's choices, and
that a block coherence operation shows priority 8, and that the requests of one class count once: notes/assumptions/28.md). -/
def Obligations.ArbitrationCountsTheBlocked : Prop :=
  ∀ (s : State) (x : Resource) (qs : List Request), qs ≠ [] →
    (∀ r, s.declaredPriority r .cpu = match r with
      | .l1p => (s.bwm.cpuarbd.toNat / 2 ^ 16 % 8 : Nat)
      | .l1d => (s.bwm.cpuarbd.toNat / 2 ^ 16 % 8 : Nat)
      | .l2 => (s.bwm.cpuarbu.toNat / 2 ^ 16 % 8 : Nat)
      | .emc => (s.bwm.cpuarbe.toNat / 2 ^ 16 % 8 : Nat)) ∧
    s.declaredPriority x .idma0 = -1 ∧ s.declaredPriority x .ucGlobal = -1 ∧ s.declaredPriority x .ucBlock = 8 ∧
    (∀ p : Fin 9, s.declaredPriority x (.sdma p) = p.val) ∧
    (∀ t, s.idma1.active = some t → s.declaredPriority x .idma1 = t.pri.toNat) ∧
    (s.idma1.active = none → s.declaredPriority x .idma1 = (s.idma1.count.toNat / 2 ^ 29 % 8 : Nat)) ∧
    (∀ q, s.waitOf x q ∈ legalWaits ∧ ((x = .l1p → q.class = 0) → (s.bwm.arbReg x q).toNat % 64 ∈ legalWaits →
      s.waitOf x q = (s.bwm.arbReg x q).toNat % 64)) ∧
    (∀ q, s.effectivePriority x q =
      if s.waitOf x q ≠ 0 ∧ s.waitOf x q ≤ s.bwm.count x q.class then -1 else s.declaredPriority x q) ∧
    (∃ cnt, s.arbitrate x qs = { s with bwm := { s.bwm with cnt := cnt }, free := s.free + 4 }) ∧
    ∃ w ∈ qs, (∀ q ∈ qs, s.effectivePriority x w ≤ s.effectivePriority x q) ∧
      ∀ (y : Resource) (c : Fin 4), (s.arbitrate x qs).bwm.count y c =
        if y ≠ x then s.bwm.count y c
        else if c = w.class then 0
        else if ∃ q ∈ qs, q.class = c then s.bwm.count y c + 1 else s.bwm.count y c

/-! ### Cache control -/

/-- A write of `L1PCC` or `L1DCC`, in either privilege, copies `OPER` to `POPER` and takes bit 0 into `OPER`; the values the
examples of the two rules give follow. -/
def Obligations.FreezeWritesMoveOperToPoper : Prop :=
  (∀ (s : State) (v : Word),
    exec (.l1pccWrite v) s =
      .next { s with l1p := { s.l1p with poper := s.l1p.oper, oper := v.getLsbD 0 }, reply := .none } ∧
    exec (.l1dccWrite v) s =
      .next { s with l1d := { s.l1d with poper := s.l1d.oper, oper := v.getLsbD 0 }, reply := .none }) ∧
  (∀ p ∈ [([Instr.l1pccWrite 1#32, .l1pccRead], 0x00000001#32), ([.l1pccWrite 1#32, .l1pccWrite 1#32, .l1pccRead], 0x00010001#32),
      ([.l1pccWrite 1#32, .l1pccWrite 1#32, .l1pccWrite 0#32, .l1pccRead], 0x00010000#32),
      ([.l1dccWrite 1#32, .l1dccWrite 0#32, .l1dccRead], 0x00010000#32)],
    ∃ t, runCommands p.1 State.reset = .next t ∧ t.reply = .word p.2)

/-- A write of `L1PCFG` that the privilege check allows sets the mode and invalidates the whole cache; nothing else
changes but the power-down state of a cache that is not enabled (spec/47_pdc_misc.md R501) and the RAM that is or was
cache, whose bytes become free, every ROM byte and every other byte of memory keeping its value (the larger of the two
sizes: spec/93_implementation_defined.md U4, notes/assumptions/30.md). -/
def Obligations.L1pModeChange : Prop :=
  ∀ (s : State) (v : Word), s.mayWrite = true →
    let size := max s.l1pSize (s.plat.l1p.cacheSize (v.setWidth 3))
    let lost := fun a => (s.plat.l1p.cacheSpan size).has a && !s.plat.isRom a
    let down := s.pdc.mmAsleep || s.pdc.sploop || decide (s.plat.l1p.cacheSize (v.setWidth 3) = 0)
    ∃ t, exec (.l1pcfgWrite v) s = .next t ∧
      t = { s with l1p := { s.l1p with mode := v.setWidth 3, lines := [] }, pdc := { s.pdc with l1pAsleep := down }
                   mem := t.mem, free := t.free, reply := .none } ∧
      ∀ a, t.mem.read a = if lost a then Config.freeByte s.free a else s.mem.read a

/-- A write of `L1DCFG` that the privilege check allows sends the victim on, writes back every dirty line (what that
delivers: `WrittenBackLineStoresOnlyItsBytes`), sets the mode and leaves the cache empty; nothing else changes but the
power-down state of a cache that is not enabled and the RAM that is or was cache, whose bytes become free. With no victim
and no dirty line only that RAM changes. The RAM that is lost is the larger of the two sizes
(spec/93_implementation_defined.md U4, notes/assumptions/30.md), a size above the largest gives the largest
(spec/92_eei_decisions.md D6), and the order of the parts is the model's (notes/assumptions/12.md). -/
def Obligations.L1dModeChange : Prop :=
  ∀ (s : State) (v : Word), s.mayWrite = true →
    let size := max s.l1dSize (s.plat.l1d.cacheSize (v.setWidth 3))
    let lost := fun a => (s.plat.l1d.cacheSpan size).has a && !s.plat.isRom a
    let down := s.pdc.mmAsleep || decide (s.plat.l1d.cacheSize (v.setWidth 3) = 0)
    let u := s.l1d.lines.foldl (fun t l => t.treatL1d .wbinv l) s.drainVictim
    ∃ t, exec (.l1dcfgWrite v) s = .next t ∧
      t.l1d = { s.l1d with mode := v.setWidth 3, lines := [], victim := none } ∧
      t = { u with l1d := t.l1d, pdc := { s.pdc with l1dAsleep := down }, mem := t.mem, free := t.free, reply := .none } ∧
      (∀ a, t.mem.read a = if lost a then Config.freeByte u.free a else u.mem.read a) ∧
      (s.l1d.victim = none → (∀ l ∈ s.l1d.lines, l.dirty = false) →
        t = { s with l1d := t.l1d, pdc := { s.pdc with l1dAsleep := down }, mem := t.mem, free := t.free, reply := .none } ∧
        ∀ a, t.mem.read a = if lost a then Config.freeByte s.free a else s.mem.read a)

/-- A write of `L2CFG` that the privilege check allows. Bits 9 and 8 start the global invalidates of L1P and L1D, each
after the operation in progress has finished, so with both set the one of L1P has completed and left L1P empty before the
one of L1D starts; then the freeze bit is set, the victim and a line that L2 has evicted go on, every dirty L2 line is written
out (what that delivers:
`WrittenBackLineStoresOnlyItsBytes`), the mode is set and the L2 cache is empty. Outside the RAM that is or was cache no
byte changes otherwise; where no invalidate is asked for and nothing is dirty, only that RAM changes. That the invalidates
come before the mode change, and that at most one operation is in progress (spec/42_l2.md R306), is the model's reading
(notes/assumptions/12.md); the RAM that is lost: spec/93_implementation_defined.md U4, notes/assumptions/30.md; a size
above the largest: spec/92_eei_decisions.md D6. -/
def Obligations.L2ModeChange : Prop :=
  ∀ (s : State) (v : Word), s.mayWrite = true →
    let s1 := if v.getLsbD 9 then s.finishOps.startOp .l1pinv 0 0 else s
    let s2 := if v.getLsbD 8 then s1.finishOps.startOp .l1dinv 0 0 else s1
    let s3 := (s2.setL2 { s2.l2 with cc := v.getLsbD 3 }).drainVictim.finishOut
    let u := s3.l2.lines.foldl (fun t l => t.treatL2 .wbinv l) s3
    let down := s.pdc.mmAsleep || decide (s.plat.l2.cacheSize (v.setWidth 3) = 0)
    let stays := fun a => !(s.plat.l2.cacheSpan s.l2Size).has a && !(s.plat.l2.cacheSpan (s.plat.l2.cacheSize (v.setWidth 3))).has a
    ∃ t, exec (.l2cfgWrite v) s = .next t ∧ t.l2.mode = v.setWidth 3 ∧ t.l2.cc = v.getLsbD 3 ∧ t.l2.lines = [] ∧
      (v.getLsbD 9 = true → v.getLsbD 8 = false → t.l1p.op.map CohOp.reg = some .l1pinv) ∧
      (v.getLsbD 9 = true → v.getLsbD 8 = true → t.l1p.op = none ∧ t.l1p.lines = []) ∧
      (v.getLsbD 8 = true → t.l1d.op.map CohOp.reg = some .l1dinv) ∧
      t = { u with l2 := t.l2, pdc := { s.pdc with l2Asleep := down }, mem := t.mem, free := t.free, reply := .none } ∧
      (∀ a, stays a = true → t.mem.read a = u.mem.read a) ∧
      (v.getLsbD 9 = false → v.getLsbD 8 = false → s.l1d.victim = none → s.l2.out = none → (∀ l ∈ s.l2.lines, l.dirty = false) →
        t = { s with l2 := { s.l2 with mode := v.setWidth 3, cc := v.getLsbD 3, lines := [] }
                     pdc := { s.pdc with l2Asleep := down }, mem := t.mem, free := t.free, reply := .none } ∧
        ∀ a, stays a = true → t.mem.read a = s.mem.read a)

/-- A write of a global coherence register waits for the operations in progress; bit 0 starts the operation and a 0 there
does nothing more. The two invalidates without writeback need the privilege check. That the wait is carried out inside the
command's own step is the model's reading of spec/42_l2.md R306 (DEDUCED: notes/assumptions/12.md). -/
def Obligations.GlobalOperationWrites : Prop :=
  ∀ (s : State) (v : Word),
    (∀ i r, (i, r) ∈ [(Instr.l1pinvWrite v, CohReg.l1pinv), (.l1dwbWrite v, .l1dwb), (.l1dwbinvWrite v, .l1dwbinv),
        (.l2wbWrite v, .l2wb), (.l2wbinvWrite v, .l2wbinv)] →
      exec i s = .next ((if v.getLsbD 0 then s.finishOps.startOp r 0 0 else s.finishOps).setReply .none)) ∧
    (s.mayWrite = true → ∀ i r, (i, r) ∈ [(Instr.l1dinvWrite v, CohReg.l1dinv), (.l2invWrite v, .l2inv)] →
      exec i s = .next ((if v.getLsbD 0 then s.finishOps.startOp r 0 0 else s.finishOps).setReply .none))

/-- A write of a base address register, in either privilege, waits for the operations in progress and stores the base for
the next block operation; it moves no data of its own. That the wait is carried out inside the command's own step is the
model's reading of spec/42_l2.md R306 (DEDUCED: notes/assumptions/12.md). -/
def Obligations.BaseAddressWrites : Prop :=
  ∀ (s : State) (v : Word) (i : Instr) (r : CohReg),
    (i, r) ∈ [(Instr.l1pibarWrite v, CohReg.l1piwc), (.l1dwibarWrite v, .l1dwiwc), (.l1dwbarWrite v, .l1dwwc),
      (.l1dibarWrite v, .l1diwc), (.l2wibarWrite v, .l2wiwc), (.l2wbarWrite v, .l2wwc), (.l2ibarWrite v, .l2iwc)] →
    ∃ t, exec i s = .next t ∧ t = (s.finishOps.setBar r { value := v, fresh := true }).setReply .none ∧
      t.barOf r = { value := v, fresh := true } ∧ t.mem = s.finishOps.mem ∧ ∀ x, t.linesOf x = s.finishOps.linesOf x

/-- A write of a word count register, in either privilege, waits for the operations in progress. A count of 0 starts nothing,
nor does an L2 count above FFE0h; another count starts the block operation at the base that was written for it. A range past
FFFF FFFFh stops the machine by name, and a base that was not written again names a range the spec leaves open
(spec/93_implementation_defined.md U7, U20; notes/assumptions/17.md). That the wait is carried out inside the command's own
step is the model's reading of spec/42_l2.md R306 (DEDUCED: notes/assumptions/12.md). -/
def Obligations.WordCountWrites : Prop :=
  ∀ (s : State) (v : Word) (i : Instr) (r : CohReg),
    (i, r) ∈ [(Instr.l1piwcWrite v, CohReg.l1piwc), (.l1dwiwcWrite v, .l1dwiwc), (.l1dwwcWrite v, .l1dwwc),
      (.l1diwcWrite v, .l1diwc), (.l2wiwcWrite v, .l2wiwc), (.l2wwcWrite v, .l2wwc), (.l2iwcWrite v, .l2iwc)] →
    let n := if cohBlock r = .l2 ∧ 0xFFE0 < v.toNat % 0x10000 then 0 else v.toNat % 0x10000
    let u := s.finishOps
    let base := (u.barOf r).value
    (n = 0 → exec i s = .next (u.setReply .none)) ∧
    (n ≠ 0 → (u.barOf r).fresh = true → base.toNat + 4 * n ≤ 0x100000000 →
      exec i s = .next (((u.setBar r { value := base, fresh := false }).startOp r base.toNat n).setReply .none)) ∧
    (n ≠ 0 → (u.barOf r).fresh = true → 0x100000000 < base.toNat + 4 * n →
      exec i s = .fault (.pastTopOfMemory base.toNat)) ∧
    (n ≠ 0 → (u.barOf r).fresh = false →
      ∃ b, b + 4 * n ≤ 0x100000000 ∧ exec i s = .next ((u.spend.startOp r b n).setReply .none))

/-- The caches that the operation of a coherence register acts on: an L1P or L1D operation on its own cache, an L2 operation
on L2 and L1D, and on L1P too when it invalidates (spec/42_l2.md R302, R304). -/
def actsOn : CohReg → List Block
  | .l1pinv | .l1piwc => [.l1p]
  | .l1dinv | .l1diwc | .l1dwb | .l1dwwc | .l1dwbinv | .l1dwiwc => [.l1d]
  | .l2wb | .l2wwc => [.l1d, .l2]
  | .l2inv | .l2iwc | .l2wbinv | .l2wiwc => [.l1p, .l1d, .l2]

/-- A line that the operation of a coherence register reaches in a cache: any line for a global operation, a line that
overlaps the byte range `[base, base + 4 words)` for a block operation (spec/42_l2.md R302, R305, R308). -/
def reaches (s : State) (r : CohReg) (base words : Nat) (x : Block) (l : Line) : Prop :=
  cohIsBlock r = false ∨
    (l.addr x (s.setsIn x) < base + 4 * words ∧ base < l.addr x (s.setsIn x) + lineSize x)

/-- What a started operation holds: its register, its range, the CPU's privilege and the list of the line frames it is to
treat: of L1P and L1D, where it acts on them (`actsOn`; spec/42_l2.md R302, R304), every frame whose line it reaches
(`reaches`) when it starts. Starting stores nothing but the victim and an evicted L2 line on their way, and changes no line of
L1P or L1D. A step at a listed frame takes it off the list and treats the line in it, if the operation still reaches that:
an invalidate or writeback-invalidate leaves the frame empty, a writeback leaves the line in it, clean (R237, R309 to R314);
else nothing changes but the list, and no other frame of that cache ever changes. The L2 lines come after all L1D lines (R302,
R309, R310): with an L1D frame still listed, a step past the end of the list does nothing; with none left it lists every L2
frame whose line it reaches then; and with these listed and the list empty it completes the operation. Before either of the
two, lines in the range that left their cache meanwhile arrive (`State.settle`: the model's choice, notes/assumptions/12.md);
with nothing on its way that changes nothing. A frame that is reached while the operation runs may be passed over, and lines
besides the listed ones treated (the model's choice: 38.md). -/
def Obligations.StartedOperationListsItsLines : Prop :=
  ∀ (s : State) (r : CohReg) (base words : Nat),
    let u := s.drainVictim.finishOut
    let t := s.startOp r base words
    (∃ o, t.opOf (cohBlock r) = some o ∧ o.reg = r ∧ o.base = base ∧ o.words = words ∧ o.priv = s.cpu.priv ∧
      (o.l2Listed = true ↔ Block.l2 ∉ actsOn r) ∧
      ∀ f : Frame, f ∈ o.todo ↔ f.cache ∈ actsOn r ∧ f.cache ≠ .l2 ∧ ∃ l ∈ u.linesOf f.cache, l.set = f.set ∧ l.way = f.way ∧
        reaches u r base words f.cache l) ∧
    t.mem = u.mem ∧ (∀ x, t.linesOf x = u.linesOf x) ∧ u.l1p = s.l1p ∧ u.l1d = { s.l1d with victim := none } ∧
    (∀ o, (s.l1d.victim = none → s.l2.out = none → s.settle o = s) ∧
      (covers o .l1d s.l1d.victim = true → (s.settle o).l1d.victim = none)) ∧
    (∀ (x : Block) (o : CohOp) (i : Nat) (f : Frame), s.opOf x = some o → o.todo[i]? = some f →
      let w := s.setOp x (some { o with todo := o.todo.eraseIdx i })
      let t := s.cohStep x i
      let now := lineAt (s.linesOf f.cache) f.set f.way
      t.opOf x = some { o with todo := o.todo.eraseIdx i } ∧
      (∀ l, now = some l → reaches s o.reg o.base o.words f.cache l →
        t = (match f.cache with
          | .l1p => w.setL1p { w.l1p with lines := dropLine w.l1p.lines f.set f.way }
          | .l1d => w.treatL1d (cohAction o.reg) l
          | .l2 => w.treatL2 (cohAction o.reg) l) ∧
        lineAt (t.linesOf f.cache) f.set f.way =
          if cohAction o.reg = .wb ∧ f.cache ≠ .l1p then some { l with dirty := false } else none) ∧
      ((∀ l, now = some l → ¬reaches s o.reg o.base o.words f.cache l) → t = w) ∧
      ∀ a b, (a, b) ≠ (f.set, f.way) → lineAt (t.linesOf f.cache) a b = lineAt (s.linesOf f.cache) a b) ∧
    ∀ (o : CohOp) (i : Nat), s.l2.op = some o → o.todo.length ≤ i →
      (o.l2Listed = false → (∃ f ∈ o.todo, f.cache = .l1d) → s.cohStep .l2 i = s) ∧
      (o.l2Listed = false → (∀ f ∈ o.todo, f.cache ≠ .l1d) → ∃ fs, s.cohStep .l2 i = (s.settle o).setL2 { (s.settle o).l2 with
          op := some { o with todo := o.todo ++ fs, l2Listed := true } } ∧
        ∀ f : Frame, f ∈ fs ↔ f.cache = .l2 ∧ Block.l2 ∈ actsOn o.reg ∧ ∃ l ∈ (s.settle o).l2.lines, l.set = f.set ∧
          l.way = f.way ∧ reaches (s.settle o) o.reg o.base o.words .l2 l) ∧
      (o.l2Listed = true → o.todo = [] → s.cohStep .l2 i = (s.settle o).setL2 { (s.settle o).l2 with op := none })

/-- A line that is written back delivers its bytes to the next level and stores nowhere else (spec/41_l1d.md R228, R231,
R237; spec/42_l2.md R286, R321, R322). The victim, and a dirty L1D line under a writeback, write back with invalidate or mode
change, go to L2 RAM where their address is L2 RAM (a ROM byte keeps its value, U2), else into the L2 line that holds the address,
which becomes dirty, else to external memory if the transaction succeeds, after a line that L2 has evicted before; a dirty L2
line goes to external memory. A victim on its way, which may be an older copy of the line, goes before the line (spec/20_memory.md
R121, R123). Bytes of memory outside these lines read as before. An invalidate, and a clean line, store nothing. A dirty line
that L2 evicts leaves the cache and is on its way out, and nothing read ahead of the new line before is kept. The victim and that line may also go word by
word: such a step delivers that word, or what is left of it, takes it off the line and stores nowhere else. The model's
choices: a transaction without an answer succeeds (notes/assumptions/22.md), a line whose address has meanwhile become L2 cache
has nowhere to go and is left out here (DEDUCED, 25.md), and the words go in any order (11.md). -/
def Obligations.WrittenBackLineStoresOnlyItsBytes : Prop :=
  (∀ (s : State) (c : CohAction) (l : Line), s.mem.wf = true →
    let apart := fun a => ∀ w, s.l2.out = some w → a < w.addr ∨ w.addr + w.bytes.length ≤ a
    (∀ v, s.l1d.victim = some v → ∀ a, (a < v.addr ∨ v.addr + v.bytes.length ≤ a) → apart a →
      s.drainVictim.mem.read a = s.mem.read a) ∧
    (∀ a, (a < l.addr .l1d s.l1dSets ∨ l.addr .l1d s.l1dSets + l.data.length ≤ a) → apart a →
      (s.treatL1d c l).mem.read a = (if c ≠ .inv ∧ l.dirty = true then s.drainVictim else s).mem.read a) ∧
    (∀ a, (a < l.addr .l2 s.l2Sets ∨ l.addr .l2 s.l2Sets + l.data.length ≤ a) → apart a →
      (s.treatL2 c l).mem.read a = s.mem.read a) ∧
    (∀ a, apart a → s.finishOut.mem.read a = s.mem.read a) ∧
    (c = .inv ∨ l.dirty = false → (s.treatL1d c l).mem = s.mem ∧ (s.treatL2 c l).mem = s.mem)) ∧
  (∀ (s u t : State) (v : Victim), s.mem.wf = true →
    (s.l1d.victim = some v ∧ u = s ∧ t = s.drainVictim ∨ ∃ c l, c ≠ .inv ∧ l.dirty = true ∧
      v = ⟨l.addr .l1d s.l1dSets, l.data.map some⟩ ∧ u = s.drainVictim ∧ t = s.treatL1d c l) →
    (s.inL2Ram v.addr = true → ∀ i b, v.bytes[i]? = some (some b) → s.plat.isRom (v.addr + i) = false →
      t.mem.read (v.addr + i) = b) ∧
    (s.inL2Ram v.addr = false → s.region v.addr ≠ .l2CacheArea → ∀ m, u.l2Lookup v.addr = some m → t.mem = u.mem ∧
      t.l2.lines = putLine u.l2.lines { m with data := overlay m.data (v.addr % 128) v.bytes, dirty := true }) ∧
    (s.inL2Ram v.addr = false → s.region v.addr ≠ .l2CacheArea → u.l2Lookup v.addr = none →
      u.finishOut.emc.replies.head? ∈ [none, some .ok] → ∀ i b, v.bytes[i]? = some (some b) → t.mem.read (v.addr + i) = b)) ∧
  (∀ (s : State) (c : CohAction) (l : Line), s.mem.wf = true → c ≠ .inv → l.dirty = true →
    s.finishOut.emc.replies.head? ∈ [none, some .ok] →
    ∀ i, i < l.data.length → some ((s.treatL2 c l).mem.read (l.addr .l2 s.l2Sets + i)) = l.data[i]?) ∧
  (∀ (s : State) (a : Nat) (l : Line), s.l2.out = none →
    let set := setOf .l2 s.l2Sets a
    let way := (s.l2.order set).headD 0
    lineAt s.l2.lines set way = some l → s.l2Evict a = if l.dirty then { s with
      l2 := { s.l2 with lines := dropLine s.l2.lines set way, out := some ⟨l.addr .l2 s.l2Sets, l.data.map some⟩ }
      emc := { s.emc with fills := s.emc.fills.filter fun w => !(List.range w.bytes.length).any fun i =>
        (w.addr + i) / 128 = a / 128 } } else s) ∧
  (∀ (s : State) (w : Victim), s.mem.wf = true → s.l2.out = some w → s.finishOut.l2 = { s.l2 with out := none } ∧
    (s.emc.replies.head? ∈ [none, some .ok] → ∀ j b, w.bytes[j]? = some (some b) → s.finishOut.mem.read (w.addr + j) = b)) ∧
  ∀ (s : State) (v : Victim) (i : Nat), s.mem.wf = true →
    let word := v.bytes.mapIdx fun j b => if j / 4 = i then b else none
    let rest : Victim := ⟨v.addr, v.bytes.mapIdx fun j b => if j / 4 = i then none else b⟩
    let delivers := fun t : State =>
      (∀ j b, j / 4 = i → v.bytes[j]? = some (some b) → s.plat.isRom (v.addr + j) = false → t.mem.read (v.addr + j) = b) ∧
      ∀ a, (a < v.addr + 4 * i ∨ v.addr + 4 * i + 4 ≤ a) → t.mem.read a = s.mem.read a
    (s.l1d.victim = some v → (s.victimWord i).l1d = { s.l1d with victim := some rest } ∧
      (s.inL2Ram v.addr = true ∨ s.l2.out = none ∧ s.region v.addr ≠ .l2CacheArea ∧ s.l2Lookup v.addr = none →
        delivers (s.victimWord i)) ∧
      (s.inL2Ram v.addr = false → s.region v.addr ≠ .l2CacheArea → ∀ m, s.l2Lookup v.addr = some m →
        (s.victimWord i).mem = s.mem ∧ (s.victimWord i).l2.lines =
          putLine s.l2.lines { m with data := overlay m.data (v.addr % 128) word, dirty := true })) ∧
    (s.l2.out = some v → (s.outWord i).l2 = { s.l2 with out := some rest } ∧ delivers (s.outWord i))

/-- What a coherence operation leaves when it has run to its end with no access meanwhile (spec/42_l2.md R302, R308 to R314;
spec/41_l1d.md R237 to R244; spec/40_l1p.md R185, R187). Of every cache it acts on (`actsOn`), a frame whose line it reaches
(`reaches`) is empty after an invalidate or writeback-invalidate; after a writeback it still holds the line, valid and clean,
with the data it had, but for an L2 line into which a dirty L1D line of the range was written back (its bytes: statement
WrittenBackLineStoresOnlyItsBytes). A line outside the range stays as it was, an empty frame stays empty, and a cache that
the operation does not act on keeps its lines, but L2 where an L1D operation writes back into it. Its register then reads 0.
The lines are those after the victim and an evicted L2 line on their way have arrived (the model's choice:
notes/assumptions/12.md). The premise that no two L2 lines stand in one frame is part of the invariant that
EveryStepKeepsTheInvariant and ResetHasTheInvariant state. A global operation that a write starts reaches every line
whatever was in progress before. Running to the end, which a following write of a coherence register waits for (R306, 12.md),
is taking the steps of the operation in list order until it is complete (38.md). -/
def Obligations.FinishedOperationReachesItsLines : Prop :=
  (∀ (s : State) (r : CohReg) (v : Word), v.getLsbD 0 = true → cohIsBlock r = false →
    let t := (s.writeGlobal r v).finishOps
    (cohAction r ≠ .wb → ∀ x ∈ actsOn r, t.linesOf x = []) ∧
    (cohAction r = .wb → ∀ x ∈ actsOn r, ∀ set way l, lineAt (t.linesOf x) set way = some l → l.dirty = false) ∧ t.readGlobal r = 0#32) ∧
  (∀ (s : State) (r : CohReg) (base words : Nat), (∀ x, s.opOf x = none) → framesDistinct s.l2.lines = true →
    let u := s.drainVictim.finishOut
    let t := (s.startOp r base words).finishOps
    (∀ x ∈ actsOn r, ∀ set way,
      (lineAt (u.linesOf x) set way = none → lineAt (t.linesOf x) set way = none) ∧
      ∀ l, lineAt (u.linesOf x) set way = some l →
        (¬reaches u r base words x l → lineAt (t.linesOf x) set way = some l) ∧
        (reaches u r base words x l → cohAction r ≠ .wb → lineAt (t.linesOf x) set way = none) ∧
        (reaches u r base words x l → cohAction r = .wb →
          ∃ d, lineAt (t.linesOf x) set way = some { l with data := d, dirty := false } ∧
            ((x = .l2 → ∀ k ∈ u.l1d.lines, k.dirty = true → reaches u r base words .l1d k →
              k.addr .l1d u.l1dSets / 128 * 128 ≠ l.addr .l2 u.l2Sets) → d = l.data))) ∧
    (∀ x, x ∉ actsOn r → (x ≠ .l2 ∨ cohBlock r = .l1p) → t.linesOf x = u.linesOf x) ∧
    (∀ x, t.opOf x = none) ∧ (cohIsBlock r = false → t.readGlobal r = 0#32) ∧
    (cohIsBlock r = true → t.readCount r = t.answer 0#32)) ∧
  ∀ s : State, s.finishOps = ((s.finishOp .l1p).finishOp .l1d).finishOp .l2 ∧ ∀ x,
    (s.opOf x = none → s.finishOp x = s) ∧
    ∀ o, s.opOf x = some o →
      (o.todo ≠ [] ∨ o.l2Listed = false → s.finishOp x = (s.cohStep x 0).finishOp x) ∧
      (o.todo = [] → o.l2Listed = true → s.finishOp x = s.cohStep x 0)

/-- `MARn` takes bit 0 where the privilege check allows the write, but `MAR0` to `MAR15` are read-only. In either
privilege `L2PDWAKEn` wakes the pages of its 1 bits, `L2PDSLEEPn` puts to sleep those of its 1 bits whose request is
honoured (a free choice: notes/assumptions/29.md), and a write of `L2PDSTATn` is ignored (spec/92_eei_decisions.md D14;
notes/assumptions/15.md). Every access of L2 RAM leaves the pages of its address awake and puts no page to sleep: a part of a
CPU load or store and a fetch, whether they hit in L1 or not and whether they are permitted or not, a unit read ahead, the
drain of a buffered write, a victim, and an IDMA or slave DMA access (spec/42_l2.md R336). -/
def Obligations.MarWritesAndPageSleep : Prop :=
  (∀ (s : State) (v : Word),
    (s.mayWrite = true → ∀ n : Fin 256, exec (.marWrite n v) s =
      .next { s with l2 := { s.l2 with mar := if n.val ≤ 15 then s.l2.mar else s.l2.mar.set n (v.getLsbD 0) }, reply := .none }) ∧
    ∀ n : Fin 2,
      (∃ w, exec (.l2pdwakeWrite n v) s = .next { s with l2 := { s.l2 with sleep := w }, reply := .none } ∧
        ∀ q : Fin 4, w[q] = if q.val = 2 * n.val then s.l2.sleep[q] && !v.getLsbD 0
          else if q.val = 2 * n.val + 1 then s.l2.sleep[q] && !v.getLsbD 1 else s.l2.sleep[q]) ∧
      (∃ w b0 b1, exec (.l2pdsleepWrite n v) s =
          .next { s with l2 := { s.l2 with sleep := w }, free := s.free + 2, reply := .none } ∧
        ∀ q : Fin 4, w[q] = if q.val = 2 * n.val then s.l2.sleep[q] || (v.getLsbD 0 && b0)
          else if q.val = 2 * n.val + 1 then s.l2.sleep[q] || (v.getLsbD 1 && b1) else s.l2.sleep[q]) ∧
      exec (.l2pdstatWrite n v) s = .next { s with reply := .none }) ∧
  ∀ (s : State) (a : Nat), s.region a = .l2Ram →
    let woken := fun t : State => ∀ q : Fin 4, t.l2.sleep[q] = true →
      s.l2.sleep[q] = true ∧ (s.plat.l2.pdPages[q]).has a = false
    (∀ n multi, ∃ r, s.loadPiece a n multi = .ok r ∧ woken r.1) ∧
    (∀ bs more, ∃ t, s.storePiece a bs more = .ok t ∧ woken t) ∧
    (∀ b, b / 32 * 32 = a → b < 0x100000000 → (∃ t, s.fetchPacket b = .ok t ∧ woken t) ∧
      (s.mayPrefetch a = true → ∃ t, s.prefetchPacket b = .ok t ∧ woken t)) ∧
    (∀ k n, s.readAhead k a n = s ∨ woken (s.readAhead k a n)) ∧
    (∀ e : WbEntry, e.first = a → woken (s.l2Write e)) ∧ (∀ v : Victim, v.addr = a → woken (s.l2WriteVictim v)) ∧
    (∀ id p n cfg bad, ∃ r, s.memReadAs id p a n cfg bad = .ok r ∧ woken r.1) ∧
    ∀ id p bs cfg bad, ∃ t, s.memWriteAs id p a bs cfg bad = .ok t ∧ woken t

/-- A fetch of a packet `b` that the execute check allows (spec/40_l1p.md R177, R206, R182; spec/42_l2.md R300, R343). From
L1P RAM, whose page is checked, it answers memory's 32 bytes; a hit answers the line's packet, whose own permissions are
checked; a miss is served by L2, and, as long as the cache is enabled and not frozen, the line of its set then holds the packet with the
permissions that L2 returns, whose SX or UX is checked; a frozen cache serves hits and keeps its lines. L2 serves a miss from
its RAM, from its line, or, where it does not allocate, from external memory after an evicted line (where it allocates:
`AccessesThroughTheCaches`). A packet whose words were read ahead is the bytes read then (`State.tear`, the model's choice,
notes/assumptions/11.md). A sleeping L2 page of the packet wakes first, on a hit too (spec/42_l2.md R336). That a transaction
without an answer succeeds (22.md) is the model's choice too. -/
def Obligations.PermittedFetchDeliversItsPacket : Prop :=
  ∀ (s : State) (a : Nat), a < 0x100000000 →
    let b := a / 32 * 32
    let mode := if s.cpu.priv = .supervisor then 3 else 0
    let ok := fun perm : BitVec 16 => s.plat.hasMp = false ∨ perm.getLsbD mode = true
    (s.region b = .l1pRam → ok (entryOf s.l1p.mppa (s.plat.l1p.page b)) →
      s.fetchPacket a = .ok { s with reply := .packet (s.tear .fetch b (s.mem.readBytes b 32)) }) ∧
    (s.l1p.oper = true → ∀ t, s.fetchPacket a = .ok t → t.l1p = s.l1p) ∧
    (s.region b = .l2Ram ∨ s.region b = .external →
      let w := if s.inL2Ram b then s.wakePages b else s
      (∀ l, s.l1pLookup b = some l → ok l.perm → s.fetchPacket a = .ok { w with reply := .packet l.data }) ∧
      (s.l1pLookup b = none → ok (s.l2Perm b) →
        let r := w.l2Read .fetchFill b 32 s.cpu.priv
        let packet := r.1.tear .fetch b r.2
        let line : Line := { set := setOf .l1p s.l1pSets b, way := 0, tag := tagOf .l1p s.l1pSets b, dirty := false
                             data := packet, perm := s.l2Perm b }
        (s.cpu.ahead = [] → packet = r.2) ∧ r.1.l1p = s.l1p ∧
        (s.l1p.oper = true ∨ s.l1pSets = 0 → s.fetchPacket a = .ok { r.1 with reply := .packet packet }) ∧
        (s.l1p.oper = false → s.l1pSets ≠ 0 → ∃ t, s.fetchPacket a = .ok t ∧
          t = { r.1 with l1p := { s.l1p with lines := putLine s.l1p.lines line }, reply := .packet packet } ∧
          t.l1pLookup b = some line))) ∧
    (s.cpu.ahead = [] → ∀ bs, s.tear .fetch b bs = bs) ∧
    (s.inL2Ram b = true → s.l2Read .fetchFill b 32 s.cpu.priv = (s.wakePages b, s.mem.readBytes b 32)) ∧
    (s.inL2Ram b = false →
      (∀ l, s.l2Lookup b = some l →
        s.l2Read .fetchFill b 32 s.cpu.priv = (s.setL2 (s.l2.touch l.set l.way), slice l.data (b % 128) 32)) ∧
      (s.l2Lookup b = none → s.mayAllocateL2 b = false → s.emc.fills = [] → s.finishOut.emc.replies.head? ∈ [none, some .ok] →
        (s.l2Read .fetchFill b 32 s.cpu.priv).2 = s.finishOut.mem.readBytes b 32))

/-! ### Memory protection -/

/-- An access is permitted when the allowed-ID bit that judges it and the bit of its privilege and kind are both 1, whatever
the other bits are; the four values of the rule's example follow. -/
def Obligations.PermittedNeedsBothBits : Prop :=
  (∀ (e : BitVec 16) (id : Nat) (p : Priv) (k : Kind) (isLocal : Bool),
    permitted e id p k isLocal = true ↔
      (e.getLsbD (if isLocal then 8 else if id ≤ 5 then 10 + id else 9) = true ∧
        e.getLsbD (match p, k with
          | .supervisor, .read => 5
          | .supervisor, .write => 4
          | .supervisor, .execute => 3
          | .user, .read => 2
          | .user, .write => 1
          | .user, .execute => 0) = true)) ∧
  permitted 0x0424#16 0 .user .read false = true ∧ permitted 0x0424#16 0 .user .write false = false ∧
  permitted 0x0424#16 0 .supervisor .read true = false ∧ permitted 0x0424#16 7 .user .read false = false

/-- `RecordFault`: with no fault held, or in L1P and L2 with a remote fault held and a local one arriving, the address, the
origin or the requestor's ID, and the implemented access type are recorded and the block's event is raised; otherwise
nothing is recorded and no event is raised. -/
def Obligations.RecordFaultKeepsTheFirstFault : Prop :=
  ∀ (s : State) (x : Block) (o : Origin) (addr : Nat) (p : Priv) (k : Kind) (id : Nat), s.plat.hasMp = true →
    let who : Word := if o = .local then 0x00000100#32 else BitVec.ofNat 32 (id % 128) <<< 9
    let type : Word := match p, k with
      | .supervisor, .read => 0x20#32
      | .supervisor, .write => 0x10#32
      | .user, .read => 0x04#32
      | .user, .write => 0x02#32
      | _, .execute => 0x00#32
    let event : Nat := match x with
      | .l1p => if o = .local then 120 else 121
      | .l1d => if o = .local then 122 else 123
      | .l2 => if o = .local then 124 else 125
    s.recordFault x o addr p k id =
      if (s.mp x).fsr = 0#32 ∨ ((x = .l1p ∨ x = .l2) ∧ o = .local ∧ (s.mp x).fsr.getLsbD 8 = false) then
        (s.setMp x { s.mp x with far := BitVec.ofNat 32 addr, farKnown := true, fsr := who ||| type }).raise event
      else s

/-- A supervisor write of a memory protection register: `XMPFCR` bit 0 clears the fault registers, the read-only registers
ignore it, a page attribute takes its implemented bits unless the lock is engaged, a key word is taken once in a sequence,
and `XMPLKCMD` arms, engages or disengages the lock; an unlock needs every compared key word to agree, and several command
bits act as the commands one after the other, KEYR, LOCK, UNLOCK (spec/93_implementation_defined.md U8;
notes/assumptions/39.md). A locked page (spec/92_eei_decisions.md D12), a key out of sequence and a wrong sequence (D13)
record a local supervisor write fault at the register's address; that a read-only register ignores the write is D14. -/
def Obligations.ProtectionWritesTakeEffect : Prop :=
  ∀ (s : State) (v : Word), s.plat.hasMp = true → s.cpu.priv = .supervisor →
    (∀ i x, (i, x) ∈ [(Instr.l1pmpfcrWrite v, Block.l1p), (.l1dmpfcrWrite v, .l1d), (.l2mpfcrWrite v, .l2)] →
      exec i s = .next ((if v.getLsbD 0 then s.setMp x { s.mp x with far := 0#32, farKnown := true, fsr := 0#32 }
        else s).setReply .none)) ∧
    (∀ i ∈ [Instr.l1pmpfarWrite v, .l1dmpfarWrite v, .l2mpfarWrite v, .l1pmpfsrWrite v, .l1dmpfsrWrite v, .l2mpfsrWrite v,
        .l1pmplkstatWrite v, .l1dmplkstatWrite v, .l2mplkstatWrite v], exec i s = .next { s with reply := .none }) ∧
    (∀ n : Fin 32, exec (.l1pmppaWrite n v) s = if s.mpL1P.lock.lk
      then .next ((s.recordFault .l1p .local (0x0184A600 + 4 * n) .supervisor .write s.plat.cpuId).setReply .none)
      else .next { s with l1p := { s.l1p with mppa := s.l1p.mppa.set n (v &&& 0x0000FF3F#32) }, reply := .none }) ∧
    (∀ n : Fin 32, exec (.l1dmppaWrite n v) s = if s.mpL1D.lock.lk
      then .next ((s.recordFault .l1d .local (0x0184AE00 + 4 * n) .supervisor .write s.plat.cpuId).setReply .none)
      else .next { s with l1d := { s.l1d with mppa := s.l1d.mppa.set n (v &&& 0x0000FF36#32) }, reply := .none }) ∧
    (∀ n : Fin 64, exec (.l2mppaWrite n v) s = if s.mpL2.lock.lk
      then .next ((s.recordFault .l2 .local (0x0184A200 + 4 * n) .supervisor .write s.plat.cpuId).setReply .none)
      else .next { s with l2 := { s.l2 with mppa := s.l2.mppa.set n (v &&& 0x0000FF3F#32) }, reply := .none }) ∧
    (∀ (n : Fin 4) i x a, (i, x, a) ∈ [(Instr.l1pmplkWrite n v, Block.l1p, 0x0184A500), (.l1dmplkWrite n v, .l1d, 0x0184AD00),
        (.l2mplkWrite n v, .l2, 0x0184A100)] →
      let l := (s.mp x).lock
      exec i s = if l.armed = true ∧ l.seen[n] = false
        then .next ((s.setMp x { s.mp x with lock := { l with tmp := l.tmp.set n v, seen := l.seen.set n true } }).setReply .none)
        else .next (((s.setMp x { s.mp x with lock := { l with armed := false } }).recordFault x .local (a + 4 * n)
          .supervisor .write s.plat.cpuId).setReply .none)) ∧
    (∀ i x a, (i, x, a) ∈ [(Instr.l1pmplkcmdWrite v, Block.l1p, 0x0184A510), (.l1dmplkcmdWrite v, .l1d, 0x0184AD10),
        (.l2mplkcmdWrite v, .l2, 0x0184A110)] →
      let l := (s.mp x).lock
      let full := l.armed = true ∧ ∀ n : Fin 4, l.seen[n] = true
      let refused := ((s.setMp x { s.mp x with lock := { l with armed := false } }).recordFault x .local a .supervisor .write
        s.plat.cpuId).setReply .none
      (∃ t, exec i s = .next t) ∧
      (v.toNat % 8 = 0 → exec i s = .next (s.setReply .none)) ∧
      (v.toNat % 8 = 4 → exec i s = .next ((s.setMp x { s.mp x with
        lock := { l with armed := true, seen := Vector.replicate 4 false } }).setReply .none)) ∧
      (v.toNat % 8 = 2 → (full ∧ l.lk = false → exec i s = .next ((s.setMp x { s.mp x with
          lock := { l with key := l.tmp, lk := true, armed := false } }).setReply .none)) ∧
        (¬(full ∧ l.lk = false) → exec i s = .next refused)) ∧
      (v.toNat % 8 = 1 →
        let agree := ∀ n : Fin 4, n.val ∈ platKeys s.plat x → l.tmp[n] = l.key[n]
        (full ∧ l.lk = true ∧ agree → exec i s = .next ((s.setMp x { s.mp x with
          lock := { l with lk := false, armed := false } }).setReply .none)) ∧
        (¬(full ∧ l.lk = true ∧ agree) → exec i s = .next refused))) ∧
    (∀ c ∈ [Instr.l1pmplkcmdWrite, .l1dmplkcmdWrite, .l2mplkcmdWrite],
      (v.toNat % 8 = 3 → exec (c v) s = runCommands [c 2#32, c 1#32] s) ∧
      (v.toNat % 8 = 5 → exec (c v) s = runCommands [c 4#32, c 1#32] s) ∧
      (v.toNat % 8 = 6 → exec (c v) s = runCommands [c 4#32, c 2#32] s) ∧
      (v.toNat % 8 = 7 → exec (c v) s = runCommands [c 4#32, c 2#32, c 1#32] s))

/-- The lock sequence of each of L1P, L1D and L2: KEYR, the four key words in any order, LOCK engage an open lock with that
key, and the same with UNLOCK disengages it again; nothing is recorded and no event is raised on the way. -/
def Obligations.LockSequenceEngagesAndDisengages : Prop :=
  ∀ (s : State) (x : Block) (cmd : Word → Instr) (key : Fin 4 → Word → Instr) (k : Fin 4 → Word) (p q : List (Fin 4)),
    (x, cmd, key) ∈ [(Block.l1p, Instr.l1pmplkcmdWrite, Instr.l1pmplkWrite), (.l1d, .l1dmplkcmdWrite, .l1dmplkWrite),
      (.l2, .l2mplkcmdWrite, .l2mplkWrite)] →
    s.plat.hasMp = true → s.cpu.priv = .supervisor →
    (s.mp x).lock.lk = false → p.Perm [0, 1, 2, 3] → q.Perm [0, 1, 2, 3] →
    ∃ t u, runCommands (cmd 4#32 :: p.map (fun n => key n (k n)) ++ [cmd 2#32]) s = .next t ∧
      (t.mp x).lock.lk = true ∧ (∀ n : Fin 4, (t.mp x).lock.key[n] = k n) ∧
      t = (s.setMp x { s.mp x with lock := (t.mp x).lock }).setReply .none ∧
      runCommands (cmd 4#32 :: q.map (fun n => key n (k n)) ++ [cmd 1#32]) t = .next u ∧
      (u.mp x).lock.lk = false ∧ u = (s.setMp x { s.mp x with lock := (u.mp x).lock }).setReply .none

/-- A user write to a supervisor-only register of L1P, L1D or L2, on a device with memory protection, changes nothing but
what the fault it records changes: a local user write at the register's address. (Without memory protection no check is
made, spec/00_scope.md R5, and every write takes effect: the statements about the writes cover it.) -/
def Obligations.UserWritesToMemoryControllersAreRefused : Prop :=
  ∀ (s : State) (v : Word), s.plat.hasMp = true → s.cpu.priv = .user →
    (∀ i a, (i, a) ∈ [(Instr.l1pcfgWrite v, 0x01840020)] ++
        [(Instr.l1pmpfarWrite v, 0x0184A400), (.l1pmpfsrWrite v, 0x0184A404), (.l1pmpfcrWrite v, 0x0184A408),
          (.l1pmplkcmdWrite v, 0x0184A510), (.l1pmplkstatWrite v, 0x0184A514)] ++
        (List.finRange 4).map (fun n => (Instr.l1pmplkWrite n v, 0x0184A500 + 4 * n.val)) ++
        (List.finRange 32).map (fun n => (Instr.l1pmppaWrite n v, 0x0184A600 + 4 * n.val)) →
      exec i s = .next ((s.recordFault .l1p .local a .user .write s.plat.cpuId).setReply .none)) ∧
    (∀ i a, (i, a) ∈ [(Instr.l1dcfgWrite v, 0x01840040), (.l1dinvWrite v, 0x01845048), (.cpuarbdWrite v, 0x01841040),
        (.idmaarbdWrite v, 0x01841044), (.sdmaarbdWrite v, 0x01841048), (.ucarbdWrite v, 0x0184104C)] ++
        [(Instr.l1dmpfarWrite v, 0x0184AC00), (.l1dmpfsrWrite v, 0x0184AC04), (.l1dmpfcrWrite v, 0x0184AC08),
          (.l1dmplkcmdWrite v, 0x0184AD10), (.l1dmplkstatWrite v, 0x0184AD14)] ++
        (List.finRange 4).map (fun n => (Instr.l1dmplkWrite n v, 0x0184AD00 + 4 * n.val)) ++
        (List.finRange 32).map (fun n => (Instr.l1dmppaWrite n v, 0x0184AE00 + 4 * n.val)) →
      exec i s = .next ((s.recordFault .l1d .local a .user .write s.plat.cpuId).setReply .none)) ∧
    (∀ i a, (i, a) ∈ [(Instr.l2cfgWrite v, 0x01840000), (.l2invWrite v, 0x01845008), (.cpuarbuWrite v, 0x01841000),
        (.idmaarbuWrite v, 0x01841004), (.sdmaarbuWrite v, 0x01841008), (.ucarbuWrite v, 0x0184100C)] ++
        (List.finRange 256).map (fun n => (Instr.marWrite n v, 0x01848000 + 4 * n.val)) ++
        [(Instr.l2mpfarWrite v, 0x0184A000), (.l2mpfsrWrite v, 0x0184A004), (.l2mpfcrWrite v, 0x0184A008),
          (.l2mplkcmdWrite v, 0x0184A110), (.l2mplkstatWrite v, 0x0184A114)] ++
        (List.finRange 4).map (fun n => (Instr.l2mplkWrite n v, 0x0184A100 + 4 * n.val)) ++
        (List.finRange 64).map (fun n => (Instr.l2mppaWrite n v, 0x0184A200 + 4 * n.val)) →
      exec i s = .next ((s.recordFault .l2 .local a .user .write s.plat.cpuId).setReply .none))

/-- A write that fails the privilege check to a register outside L1P, L1D and L2 is dropped; it raises the event the
platform names for it, if it names one (spec/00_scope.md R5, `SYS_REGFAULT_EVENT`; spec/92_eei_decisions.md D1). That this
holds of the read-only `EVTFLAGn`, `MEVTFLAGn`, `MEXPFLAGn` and `INTXSTAT` too is the model's reading: spec/30_encoding.md
R154 says that such a write is ignored, spec/45_intc.md R431 that it is refused (DEDUCED, notes/assumptions/15.md). -/
def Obligations.UserWritesElsewhereAreDropped : Prop :=
  ∀ (s : State) (v : Word) (n : Fin 4) (i : Instr), s.mayWrite = false →
    (i ∈ [Instr.evtflagWrite n v, .evtsetWrite n v, .evtclrWrite n v, .evtmaskWrite n v, .mevtflagWrite n v, .expmaskWrite n v,
        .mexpflagWrite n v, .intxstatWrite v, .intxclrWrite v, .intdmaskWrite v, .pdccmdWrite v, .cpuarbeWrite v,
        .idmaarbeWrite v, .sdmaarbeWrite v, .mdmaarbeWrite v, .buserrclrWrite v] ∨ (∃ m : Fin 3, i = .intmuxWrite m.succ v) ∨
      (s.plat.hasAet = true ∧ ∃ m, i = .aegmuxWrite m v)) →
    exec i s = match s.plat.regFaultEvent with
      | .none => .next { s with reply := .none }
      | .sysCmpa => .next ((s.raise 119).setReply .none)
      | .emcCmpa => .next ((s.raise 126).setReply .none)

/-! ### Internal DMA -/

/-- A write of an IDMA parameter register, in either privilege, stores the value for the next submission (channel 0 addresses
with bits 4:0 zero): no transfer starts, an active transfer keeps what it captured, no event is raised, and reads give the
value back (spec/43_idma.md R361; channel 1: R367, spec/92_eei_decisions.md D18). `MASK`, `SOURCE`, `DEST` of channel 0, or
`SOURCE`, `DEST` of channel 1, written in this order, are all that a submission needs before the count (R357, R364): the
channel then stands at `Stage.dest`, the model's own field (notes/assumptions/16.md). -/
def Obligations.IdmaParameterWrites : Prop :=
  ∀ (s : State) (v : Word),
    (∃ x, exec (.idma0MaskWrite v) s = .next { s with idma0 := x, reply := .none } ∧
      x = { s.idma0 with mask := v, stage := x.stage }) ∧
    (∃ x, exec (.idma0SourceWrite v) s = .next { s with idma0 := x, reply := .none } ∧
      x = { s.idma0 with source := v &&& 0xFFFFFFE0#32, stage := x.stage }) ∧
    (∃ x, exec (.idma0DestWrite v) s = .next { s with idma0 := x, reply := .none } ∧
      x = { s.idma0 with dest := v &&& 0xFFFFFFE0#32, stage := x.stage }) ∧
    (∃ x, exec (.idma1SourceWrite v) s = .next { s with idma1 := x, reply := .none } ∧
      x = { s.idma1 with source := v, stage := x.stage }) ∧
    (∃ x, exec (.idma1DestWrite v) s = .next { s with idma1 := x, reply := .none } ∧
      x = { s.idma1 with dest := v, stage := x.stage }) ∧
    (∀ i j w, (i, j, w) ∈ [(Instr.idma0MaskWrite v, Instr.idma0MaskRead, v),
        (.idma0SourceWrite v, .idma0SourceRead, v &&& 0xFFFFFFE0#32), (.idma0DestWrite v, .idma0DestRead, v &&& 0xFFFFFFE0#32),
        (.idma1SourceWrite v, .idma1SourceRead, v), (.idma1DestWrite v, .idma1DestRead, v)] →
      ∃ t, runCommands [i, j] s = .next t ∧ t.reply = .word w) ∧
    (∀ a b : Word, runCommands [.idma0MaskWrite v, .idma0SourceWrite a, .idma0DestWrite b] s = .next { s with
      idma0 := { s.idma0 with mask := v, source := a &&& 0xFFFFFFE0#32, dest := b &&& 0xFFFFFFE0#32, stage := .dest }
      reply := .none }) ∧
    ∀ b : Word, runCommands [.idma1SourceWrite v, .idma1DestWrite b] s = .next { s with
      idma1 := { s.idma1 with source := v, dest := b, stage := .dest }, reply := .none }

/-- The transfer a write of `v` to `IDMA0_COUNT` submits: the parameters as last written, the fields of `v`, and the CPU's
privilege and ID. -/
def idma0Parameters (s : State) (v : Word) : Xfer :=
  { mask := s.idma0.mask, src := s.idma0.source, dst := s.idma0.dest, count := v.toNat % 16, fill := false
    int := v.getLsbD 28, pri := 0#3, priv := s.cpu.priv, id := s.plat.cpuId, pos := 0 }

/-- The transfer a write of `v` to `IDMA1_COUNT` submits. -/
def idma1Parameters (s : State) (v : Word) : Xfer :=
  { mask := s.idma1.mask, src := s.idma1.source, dst := s.idma1.dest, count := v.toNat % 0x10000, fill := v.getLsbD 16
    int := v.getLsbD 28, pri := BitVec.ofNat 3 (v.toNat / 2 ^ 29), priv := s.cpu.priv, id := s.plat.cpuId, pos := 0 }

/-- A write of a count register, in either privilege, stores the fields. After the parameter registers were written in order,
`MASK`, `SOURCE`, `DEST` on channel 0 and `SOURCE`, `DEST` on channel 1, it submits the transfer: active on an idle channel,
pending behind an active one, and a third is refused by name; so from every state the commands in order do. `Stage.dest` is
the model's record of that order. Not in order, and with room, it completes too; whether it submits is open
(spec/93_implementation_defined.md U11, U12; notes/assumptions/16.md). -/
def Obligations.IdmaCountWritesSubmit : Prop :=
  ∀ (s : State) (v : Word),
    let c0 : Chan := { s.idma0 with count := v &&& 0x1000000F#32, stage := .none }
    let c1 : Chan := { s.idma1 with count := v &&& 0xF001FFFF#32, stage := .none }
    (s.idma0.stage = .dest →
      (s.idma0.active = none → exec (.idma0CountWrite v) s =
        .next { s with idma0 := { c0 with active := some (idma0Parameters s v) }, free := s.free + 1, reply := .none }) ∧
      (s.idma0.active ≠ none → s.idma0.pending = none → exec (.idma0CountWrite v) s =
        .next { s with idma0 := { c0 with pending := some (idma0Parameters s v) }, free := s.free + 1, reply := .none }) ∧
      (s.idma0.active ≠ none → s.idma0.pending ≠ none → exec (.idma0CountWrite v) s = .refused (.idmaQueueFull 0))) ∧
    (s.idma0.stage ≠ .dest → s.idma0.active = none ∨ s.idma0.pending = none →
      ∃ t, exec (.idma0CountWrite v) s = .next t ∧ t.idma0.count = v &&& 0x1000000F#32 ∧
        t = { s with idma0 := t.idma0, free := s.free + 1, reply := .none }) ∧
    (s.idma1.stage = .dest →
      (s.idma1.active = none → exec (.idma1CountWrite v) s =
        .next { s with idma1 := { c1 with active := some (idma1Parameters s v) }, free := s.free + 1, reply := .none }) ∧
      (s.idma1.active ≠ none → s.idma1.pending = none → exec (.idma1CountWrite v) s =
        .next { s with idma1 := { c1 with pending := some (idma1Parameters s v) }, free := s.free + 1, reply := .none }) ∧
      (s.idma1.active ≠ none → s.idma1.pending ≠ none → exec (.idma1CountWrite v) s = .refused (.idmaQueueFull 1))) ∧
    (s.idma1.stage ≠ .dest → s.idma1.active = none ∨ s.idma1.pending = none →
      ∃ t, exec (.idma1CountWrite v) s = .next t ∧ t.idma1.count = v &&& 0xF001FFFF#32 ∧
        t = { s with idma1 := t.idma1, free := s.free + 1, reply := .none }) ∧
    (∀ m a b : Word,
      let run := runCommands [.idma0MaskWrite m, .idma0SourceWrite a, .idma0DestWrite b, .idma0CountWrite v] s
      let p : Xfer := { idma0Parameters s v with mask := m, src := a &&& 0xFFFFFFE0#32, dst := b &&& 0xFFFFFFE0#32 }
      let c : Chan := { c0 with mask := m, source := a &&& 0xFFFFFFE0#32, dest := b &&& 0xFFFFFFE0#32 }
      (s.idma0.active = none → run = .next { s with idma0 := { c with active := some p }, free := s.free + 1, reply := .none }) ∧
      (s.idma0.active ≠ none → s.idma0.pending = none →
        run = .next { s with idma0 := { c with pending := some p }, free := s.free + 1, reply := .none }) ∧
      (s.idma0.active ≠ none → s.idma0.pending ≠ none → run = .refused (.idmaQueueFull 0))) ∧
    ∀ a b : Word,
      let run := runCommands [.idma1SourceWrite a, .idma1DestWrite b, .idma1CountWrite v] s
      let p : Xfer := { idma1Parameters s v with src := a, dst := b }
      let c : Chan := { c1 with source := a, dest := b }
      (s.idma1.active = none → run = .next { s with idma1 := { c with active := some p }, free := s.free + 1, reply := .none }) ∧
      (s.idma1.active ≠ none → s.idma1.pending = none →
        run = .next { s with idma1 := { c with pending := some p }, free := s.free + 1, reply := .none }) ∧
      (s.idma1.active ≠ none → s.idma1.pending ≠ none → run = .refused (.idmaQueueFull 1))

/-- An aligned word that a DMA-class access of that kind reaches in L1P or L1D RAM. -/
def l1Word (s : State) (a id : Nat) (p : Priv) (k : Kind) : Prop :=
  a % 4 = 0 ∧ ((s.region a = .l1dRam ∧ s.allows (entryOf s.l1d.mppa (s.plat.l1d.page a)) id p k false = true) ∨
    (s.region a = .l1pRam ∧ s.allows (entryOf s.l1p.mppa (s.plat.l1p.page a)) id p k false = true))

/-- One step of a transfer moves one word and advances (spec/43_idma.md R358, R365). A channel 1 fill writes the fill
value at the destination plus four times the words done, a copy the word read at the source plus as much, and channel 0
the same between configuration space and a local memory, but passes over a word whose mask bit is 1: as a DMA-class
access, whose effect in each memory `SlaveDmaMovesItsBytes` states. From L1P or L1D RAM to L1P or L1D RAM that the pages
allow, and into them from configuration space, no other byte of memory and no other part of the state changes but the
ports. A ROM byte keeps its value (spec/93_implementation_defined.md U2). The byte order of the fill value is PRESUMED (G3,
notes/assumptions/9.md); one word a step is spec/92_eei_decisions.md D16; that configuration registers are bytes of memory
whose reads have no side effect, and that a transaction without an answer succeeds, are the model's choices
(notes/assumptions/23.md, 22.md). -/
def Obligations.IdmaStepMovesOneWord : Prop :=
  ∀ (s : State) (t : Xfer), s.mem.wf = true →
    let src := t.src.toNat / 4 * 4
    let dst := t.dst.toNat / 4 * 4
    let one := s.setIdma1 { s.idma1 with active := some { t with pos := t.pos + 1 } }
    let zero := s.setIdma0 { s.idma0 with active := some { t with pos := t.pos + 1 } }
    (s.idma1.active = some t → t.count % 4 = 0 → t.pos < t.count / 4 → dst + t.count ≤ 0x100000000 → s.isLocal dst = true →
      (t.fill = true →
        s.stepIdma 1 = one.memWriteAs t.id t.priv (dst + 4 * t.pos) (bytesOf s.plat.endian t.src.toNat 4) false
          (.idmaAddress 1 dst) ∧
        (l1Word s (dst + 4 * t.pos) t.id t.priv .write →
          ∃ u, s.stepIdma 1 = .ok u ∧ u = { one with mem := u.mem } ∧
            (∀ i : Nat, i < 4 → s.plat.isRom (dst + 4 * t.pos + i) = false →
              some (u.mem.read (dst + 4 * t.pos + i)) = (bytesOf s.plat.endian t.src.toNat 4)[i]?) ∧
            ∀ b, (b < dst + 4 * t.pos ∨ dst + 4 * t.pos + 4 ≤ b ∨ s.plat.isRom b = true) → u.mem.read b = s.mem.read b)) ∧
      (t.fill = false → src + t.count ≤ 0x100000000 → s.isLocal src = true →
        s.stepIdma 1 = (one.memReadAs t.id t.priv (src + 4 * t.pos) 4 false (.idmaAddress 1 (src + 4 * t.pos))).bind (fun r =>
          r.1.memWriteAs t.id t.priv (dst + 4 * t.pos) r.2 false (.idmaAddress 1 (dst + 4 * t.pos))) ∧
        (l1Word s (src + 4 * t.pos) t.id t.priv .read → l1Word s (dst + 4 * t.pos) t.id t.priv .write →
          ∃ u, s.stepIdma 1 = .ok u ∧ u = { one with mem := u.mem } ∧
            (∀ i : Nat, i < 4 → s.plat.isRom (dst + 4 * t.pos + i) = false →
              u.mem.read (dst + 4 * t.pos + i) = s.mem.read (src + 4 * t.pos + i)) ∧
            ∀ b, (b < dst + 4 * t.pos ∨ dst + 4 * t.pos + 4 ≤ b ∨ s.plat.isRom b = true) → u.mem.read b = s.mem.read b))) ∧
    (s.idma0.active = some t → s.inCfg t.src.toNat ≠ s.inCfg t.dst.toNat → s.idma0Ends t.src.toNat t.dst.toNat = true →
      t.src.toNat + 128 * (t.count + 1) ≤ 0x100000000 → t.dst.toNat + 128 * (t.count + 1) ≤ 0x100000000 →
      t.pos < 32 * (t.count + 1) →
      (t.mask.getLsbD (t.pos % 32) = true → s.stepIdma 0 = .ok zero) ∧
      (t.mask.getLsbD (t.pos % 32) = false →
        s.stepIdma 0 = (zero.memReadAs t.id t.priv (t.src.toNat + 4 * t.pos) 4 true (.idmaAddress 0 (t.src.toNat + 4 * t.pos))).bind
          (fun r => r.1.memWriteAs t.id t.priv (t.dst.toNat + 4 * t.pos) r.2 true (.idmaAddress 0 (t.dst.toNat + 4 * t.pos))) ∧
        (s.region (t.src.toNat + 4 * t.pos) = .extCfg → l1Word s (t.dst.toNat + 4 * t.pos) t.id t.priv .write →
          s.emc.replies.head? ∈ [none, some .ok] → (t.src.toNat + 4 * t.pos) % 4 = 0 →
          ∃ u, s.stepIdma 0 = .ok u ∧ u = { zero with mem := u.mem, emc := u.emc } ∧
            (∀ i : Nat, i < 4 → s.plat.isRom (t.dst.toNat + 4 * t.pos + i) = false →
              u.mem.read (t.dst.toNat + 4 * t.pos + i) = s.mem.read (t.src.toNat + 4 * t.pos + i)) ∧
            ∀ b, (b < t.dst.toNat + 4 * t.pos ∨ t.dst.toNat + 4 * t.pos + 4 ≤ b ∨ s.plat.isRom b = true) →
              u.mem.read b = s.mem.read b)))

/-- The end of a transfer: a completed one raises event 13 or 14 if it asked for an interrupt, a channel 0 transfer with
both ends in configuration space raises event 97 and moves nothing, and the pending transfer becomes active. No byte of
memory changes. That such a faulted transfer raises no event 13, even if it asked for an interrupt, is
spec/92_eei_decisions.md D17. -/
def Obligations.IdmaTransfersEnd : Prop :=
  ∀ (s : State) (t : Xfer),
    (s.idma1.active = some t → t.count % 4 = 0 → t.count / 4 ≤ t.pos →
      s.stepIdma 1 = .ok { (if t.int then s.raise 14 else s) with
        idma1 := { s.idma1 with active := s.idma1.pending, pending := none } }) ∧
    (s.idma0.active = some t → s.inCfg t.src.toNat = true → s.inCfg t.dst.toNat = true →
      s.stepIdma 0 = .ok { s.raise 97 with idma0 := { s.idma0 with active := s.idma0.pending, pending := none } }) ∧
    (s.idma0.active = some t → s.inCfg t.src.toNat ≠ s.inCfg t.dst.toNat → s.idma0Ends t.src.toNat t.dst.toNat = true →
      t.src.toNat + 128 * (t.count + 1) ≤ 0x100000000 → t.dst.toNat + 128 * (t.count + 1) ≤ 0x100000000 →
      32 * (t.count + 1) ≤ t.pos →
      s.stepIdma 0 = .ok { (if t.int then s.raise 13 else s) with
        idma0 := { s.idma0 with active := s.idma0.pending, pending := none } })

/-! ### Events, interrupts and exceptions -/

/-- A system event sets its flag, and reaches the CPU interrupt flag of every input that selects it directly and is not
already flagged (the pulse lies within the step: notes/assumptions/10.md). -/
def Obligations.EventReachesTheSelectedInput : Prop :=
  ∀ (s : State) (e k : Nat) (rest : List Action), s.agenda = .event e :: rest → isPlatformEvent e = true →
    4 ≤ k → k ≤ 15 → s.intc.intsel k = e → s.cpu.prevInt.getLsbD k = false → s.cpu.ifr.getLsbD k = false →
    ∃ t, step s = .next t ∧ t.agenda = rest ∧ t.cpu.ifr.getLsbD k = true ∧
      ∃ h : e / 32 < 4, t.intc.evtFlag[e / 32].getLsbD (e % 32) = true

/-- Sampling sets the flag of exactly the inputs that rise, keeps every other CPU interrupt flag, and sets the EXCEP flag
on a rising edge of EXCEP while exceptions are enabled; the values sampled, pulses too, are what the next sampling
compares with. The latch on a rising edge is spec/92_eei_decisions.md D29, one sampling at the end of every step
notes/assumptions/10.md. -/
def Obligations.SamplingLatchesRisingInputs : Prop :=
  ∀ s : State,
    (∀ k, 4 ≤ k → k ≤ 15 → s.sample.cpu.ifr.getLsbD k =
      (s.cpu.ifr.getLsbD k || (s.intc.cpuint k && !s.cpu.prevInt.getLsbD k))) ∧
    (∀ k, k < 4 → s.sample.cpu.ifr.getLsbD k = s.cpu.ifr.getLsbD k) ∧
    s.sample.cpu.efr = { s.cpu.efr with
      excep := s.cpu.efr.excep || (s.cpu.gee && s.intc.excep && !s.cpu.prevExcep) } ∧
    (∀ k, 4 ≤ k → k ≤ 15 → s.sample.cpu.prevInt.getLsbD k = s.intc.cpuint k) ∧
    s.sample.cpu.prevExcep = s.intc.excep ∧ s.sample.mem = s.mem

/-- A CPU interrupt received while its flag is already set is a drop on CPUINTk, otherwise it sets the flag. A drop reported
with no drop held and CPUINTk not masked makes `INTXSTAT` take DROP, k and the selected event and raises event 96; otherwise
nothing is recorded and no event is raised (spec/45_intc.md R424; that a received interrupt otherwise sets the flag:
spec/60_exceptions.md R535, spec/92_eei_decisions.md D29). -/
def Obligations.OnlyTheFirstDropIsRecorded : Prop :=
  ∀ (s : State) (k : Nat), 4 ≤ k → k ≤ 15 →
    s.receiveInterrupt k = (if s.cpu.ifr.getLsbD k then s.reportDrop k
      else { s with cpu := { s.cpu with ifr := s.cpu.ifr ||| 1#16 <<< k } }) ∧
    s.reportDrop k =
      if s.intc.intDMask.getLsbD k = false ∧ s.intc.intXStat.getLsbD 0 = false then
        ({ s with intc := { s.intc with
          intXStat := BitVec.ofNat 32 (s.intc.intsel k) <<< 24 ||| BitVec.ofNat 32 k <<< 16 ||| 1#32 } } : State).raise 96
      else s

/-- The CPU takes interrupt k exactly when its flag, its enable and the global enable are set; the flag is then cleared
and control passes to its handler. NMI as an interrupt needs only its flag. Nothing outside the CPU changes. That taking
clears the flag is spec/92_eei_decisions.md D29; the recorded handler, the free order of taking (G2) and that NMI has no
enable are the model's (notes/assumptions/8.md, 21.md). -/
def Obligations.InterruptsNeedTheirEnables : Prop :=
  ∀ s : State,
    (∀ k, 4 ≤ k → k ≤ 15 → s.takeInterrupt k =
      if s.cpu.ifr.getLsbD k ∧ s.cpu.ier.getLsbD k ∧ s.cpu.gie then
        { s with cpu := { s.cpu with ifr := s.cpu.ifr &&& ~~~(1#16 <<< k), handler := .cpuint k } } else s) ∧
    s.takeInterrupt 1 =
      if s.cpu.ifr.getLsbD 1 then { s with cpu := { s.cpu with ifr := s.cpu.ifr &&& 0xFFFD#16, handler := .nmiVector } } else s

/-- NMI posts interrupt flag 1 while exceptions are disabled and the NMI exception flag while they are enabled; with them
enabled the flag of NMI, of EXCEP or of an internal exception enters at the NMI vector, and without one of these nothing is
taken; `SWE` enters at the NMI vector and `SWENR` at the address in `REP` only (spec/60_exceptions.md R537 to R539). The
model's own choices (DESIGN CHOICE, notes/assumptions/21.md), which no rule states: with exceptions disabled `SWE` and
`SWENR` do nothing and no flag enters; a software exception enters in the step of its instruction; the flags stay set after
an entry, and an entry records its handler and nothing else. -/
def Obligations.ExceptionEntry : Prop :=
  ∀ s : State,
    (s.cpu.gee = false → s.nmi = { s with cpu := { s.cpu with ifr := s.cpu.ifr ||| 2#16 } } ∧ s.takeException = s ∧
      ∀ b, s.softwareException b = s) ∧
    (s.cpu.gee = true → s.nmi = { s with cpu := { s.cpu with efr := { s.cpu.efr with nmi := true } } } ∧
      (s.cpu.efr.nmi ∨ s.cpu.efr.excep ∨ s.cpu.efr.internal →
        s.takeException = { s with cpu := { s.cpu with handler := .nmiVector } }) ∧
      (s.cpu.efr.nmi = false → s.cpu.efr.excep = false → s.cpu.efr.internal = false → s.takeException = s) ∧
      ∀ b, s.softwareException b = { s with cpu := { s.cpu with efr := { s.cpu.efr with software := true }
                                                                handler := if b then .rep s.cpu.rep else .nmiVector } })

/-- An error status of an MDMA or CFG transaction is recorded only while `BUSERR.ERR` is 0, with its kind, its transaction ID
and its status, and then raises event 127 (spec/92_eei_decisions.md D26). -/
def Obligations.OnlyTheFirstBusErrorIsRecorded : Prop :=
  ∀ (s : State) (op : BusOp) (xid : BitVec 4) (stat : BitVec 3),
    let err : Nat := match op with
      | .mdmaRead => 1
      | .mdmaWrite => 2
      | .cfgRead => 3
      | .cfgWrite => 4
    s.busError op xid stat =
      if s.emc.busErr.toNat / 2 ^ 29 = 0 then
        ({ s with emc := { s.emc with
          busErr := BitVec.ofNat 32 err <<< 29 ||| xid.setWidth 32 <<< 8 ||| stat.setWidth 32 } } : State).raise 127
      else s

/-- A fetch that the execute check refuses delivers no packet (spec/40_l1p.md R206, spec/42_l2.md R343), and from L1P RAM,
or of a line that L1P holds, nothing in the megamodule changes (spec/60_exceptions.md R530), but that the access wakes a
sleeping L2 page of the packet, on a hit too (spec/42_l2.md R336). The model's own (DEDUCED and
unsafe, notes/assumptions/19.md, 21.md): the refused fetch answers that it was refused and flags an internal exception of
the CPU if exceptions are enabled; and a refused miss has been served by L2 and has filled its line in L1P before the check
(`State.l1pFill`), read from R300 and R343, by which L2 returns the permissions that L1P checks together with the packet,
while R530 says of the refusal itself that it leaves the megamodule's state unchanged. -/
def Obligations.RefusedFetchDeliversNoPacket : Prop :=
  ∀ (s : State) (a : Nat), a < 0x100000000 → s.plat.hasMp = true →
    let b := a / 32 * 32
    let mode := if s.cpu.priv = .supervisor then 3 else 0
    let refused := fun u : State => { u with
      cpu := { u.cpu with efr := { u.cpu.efr with internal := u.cpu.efr.internal || u.cpu.gee } }
      reply := .fetchRefused b }
    (s.region b = .l1pRam → (entryOf s.l1p.mppa (s.plat.l1p.page b)).getLsbD mode = false →
      s.fetchPacket a = .ok (refused s)) ∧
    (s.region b = .l2Ram ∨ s.region b = .external →
      let w := if s.inL2Ram b then s.wakePages b else s
      (∀ l, s.l1pLookup b = some l → l.perm.getLsbD mode = false → s.fetchPacket a = .ok (refused w)) ∧
      (s.l1pLookup b = none → (s.l2Perm b).getLsbD mode = false → s.fetchPacket a = .ok (refused (w.l1pFill b).1)))

/-- An idle megamodule wakes on a pending interrupt that is enabled; it then runs with every controller up but one whose
cache is not enabled, and L1P while the CPU executes from the SPLOOP buffer. Without one it stays as it is
(spec/47_pdc_misc.md R501, R503). R503 names enabled interrupts only: that NMI as an interrupt, posted as flag 1, wakes it
too, without an enable, and that an exception does not, is the model's own reading (DEDUCED, unsafe:
notes/assumptions/20.md; NMI has no enable: 21.md). -/
def Obligations.EnabledInterruptWakesTheMegamodule : Prop :=
  ∀ s : State, s.cpu.idle = true →
    ((s.cpu.ifr.getLsbD 1 = true ∨
        (s.cpu.gie = true ∧ ∃ k, 4 ≤ k ∧ k ≤ 15 ∧ s.cpu.ifr.getLsbD k = true ∧ s.cpu.ier.getLsbD k = true)) →
      s.wake = { s with
        cpu := { s.cpu with idle := false, running := true }
        pdc := { s.pdc with mmAsleep := false, l1pAsleep := s.pdc.sploop || decide (s.l1pSize = 0)
                            l1dAsleep := decide (s.l1dSize = 0), l2Asleep := decide (s.l2Size = 0) } }) ∧
    (s.cpu.ifr.getLsbD 1 = false →
      (s.cpu.gie = false ∨ ∀ k, 4 ≤ k → k ≤ 15 → s.cpu.ifr.getLsbD k = false ∨ s.cpu.ier.getLsbD k = false) → s.wake = s)

/-! ### Memory -/

/-- A slave DMA transaction goes on by aligned units of at most a word (spec/20_memory.md R108, R112, R131;
notes/assumptions/24.md). Each step of a write that the page allows stores its next bytes at its address, but those in ROM,
which keep their value (spec/93_implementation_defined.md U2), each step of a read answers or collects them, and what is left
stays under way; nothing else changes. In L2 RAM a victim on its way arrives first (notes/assumptions/12.md), the page wakes,
a write updates the line L1D holds and leaves its state, and a read sees the line L1D holds dirty (spec/42_l2.md R323, R324;
spec/41_l1d.md R248). A denied step changes no byte of memory, records a remote fault of its kind, and the transaction goes
on; a denied read step collects free bytes (U6; that the master sees no error status: notes/assumptions/24.md). -/
def Obligations.SlaveDmaMovesItsBytes : Prop :=
  ∀ (s : State) (id : Nat) (p : Priv) (a : Nat), s.mem.wf = true →
    (∀ bs : List Byte, bs ≠ [] → id < 2 ^ s.plat.idWidth → a + bs.length ≤ 0x100000000 →
      s.sdmaWrite id p a bs = (s.sdmaNext ⟨id, p, a, .write bs⟩).map fun r =>
        { r.1 with emc := { r.1.emc with bursts := r.1.emc.bursts ++ r.2.toList } }) ∧
    (∀ n, n ≠ 0 → id < 2 ^ s.plat.idWidth → a + n ≤ 0x100000000 →
      s.sdmaRead id p a n = (s.sdmaNext ⟨id, p, a, .read n []⟩).map fun r =>
        { r.1 with emc := { r.1.emc with bursts := r.1.emc.bursts ++ r.2.toList } }) ∧
    (∀ bs : List Byte, bs ≠ [] →
      let k := if a % 4 = 0 ∧ 4 ≤ bs.length then 4 else if a % 2 = 0 ∧ 2 ≤ bs.length then 2 else 1
      let more : Option Burst := if k < bs.length then some ⟨id, p, a + k, .write (bs.drop k)⟩ else none
      (∀ x e, ((x = Block.l1d ∧ s.region a = .l1dRam ∧ e = entryOf s.l1d.mppa (s.plat.l1d.page a)) ∨
          (x = Block.l1p ∧ s.region a = .l1pRam ∧ e = entryOf s.l1p.mppa (s.plat.l1p.page a))) →
        (s.allows e id p .write false = true →
          ∃ t, s.sdmaNext ⟨id, p, a, .write bs⟩ = .ok (t, more) ∧ t = { s with mem := t.mem } ∧
            (∀ i, i < k → s.plat.isRom (a + i) = false → some (t.mem.read (a + i)) = bs[i]?) ∧
            ∀ b, (b < a ∨ a + k ≤ b ∨ s.plat.isRom b = true) → t.mem.read b = s.mem.read b) ∧
        (s.allows e id p .write false = false →
          s.sdmaNext ⟨id, p, a, .write bs⟩ = .ok (s.recordFault x .remote a p .write id, more) ∧
          (s.recordFault x .remote a p .write id).mem = s.mem)) ∧
      (s.region a = .l2Ram →
        let u := s.drainVictim.wakePages a
        (s.allows (s.l2Perm a) id p .write false = true →
          ∃ t, s.sdmaNext ⟨id, p, a, .write bs⟩ = .ok (t, more) ∧
            t = { u with mem := t.mem, l1d := { u.l1d with lines := t.l1d.lines } } ∧
            (∀ i, i < k → s.plat.isRom (a + i) = false → some (t.mem.read (a + i)) = bs[i]?) ∧
            (∀ b, (b < a ∨ a + k ≤ b ∨ s.plat.isRom b = true) → t.mem.read b = u.mem.read b) ∧
            (u.l1dLookup a = none → t.l1d.lines = u.l1d.lines) ∧
            ∀ l, u.l1dLookup a = some l → t.l1d.lines = putLine u.l1d.lines { l with
              data := overlay l.data (a % 64) ((bs.take k).mapIdx fun i b => if s.plat.isRom (a + i) then none else some b) }) ∧
        (s.allows (s.l2Perm a) id p .write false = false →
          s.sdmaNext ⟨id, p, a, .write bs⟩ = .ok (u.recordFault .l2 .remote a p .write id, more) ∧
          (u.recordFault .l2 .remote a p .write id).mem = u.mem))) ∧
    (∀ n got, n ≠ 0 →
      let k := if a % 4 = 0 ∧ 4 ≤ n then 4 else if a % 2 = 0 ∧ 2 ≤ n then 2 else 1
      let answer := fun (u : State) (bs : List Byte) => if k < n then (u, some (⟨id, p, a + k, .read (n - k) (got ++ bs)⟩ : Burst))
        else ({ u with reply := .data (got ++ bs) }, none)
      (((s.region a = .l1dRam ∧ s.allows (entryOf s.l1d.mppa (s.plat.l1d.page a)) id p .read false = true) ∨
          (s.region a = .l1pRam ∧ s.allows (entryOf s.l1p.mppa (s.plat.l1p.page a)) id p .read false = true)) →
        s.sdmaNext ⟨id, p, a, .read n got⟩ = .ok (answer s (s.mem.readBytes a k))) ∧
      (∀ x u, ((x = Block.l1d ∧ u = s ∧ s.region a = .l1dRam ∧
            s.allows (entryOf s.l1d.mppa (s.plat.l1d.page a)) id p .read false = false) ∨
          (x = Block.l1p ∧ u = s ∧ s.region a = .l1pRam ∧
            s.allows (entryOf s.l1p.mppa (s.plat.l1p.page a)) id p .read false = false) ∨
          (x = Block.l2 ∧ u = s.drainVictim.wakePages a ∧ s.region a = .l2Ram ∧ s.allows (s.l2Perm a) id p .read false = false)) →
        s.sdmaNext ⟨id, p, a, .read n got⟩ = .ok (answer { u.recordFault x .remote a p .read id with free := u.free + 1 }
          ((List.range k).map fun i => Config.freeByte u.free i)) ∧ (u.recordFault x .remote a p .read id).mem = u.mem) ∧
      (s.region a = .l2Ram → s.allows (s.l2Perm a) id p .read false = true →
        let u := s.drainVictim.wakePages a
        (∀ l, u.l1dLookup a = some l → l.dirty = true →
          s.sdmaNext ⟨id, p, a, .read n got⟩ = .ok (answer u (slice l.data (a % 64) k))) ∧
        ((∀ l, u.l1dLookup a = some l → l.dirty = false) →
          s.sdmaNext ⟨id, p, a, .read n got⟩ = .ok (answer u (u.mem.readBytes a k)))))

/-- A CPU store to L1D RAM that its page allows stores, in its first step, the bytes of its first aligned unit (a word, a
half-word or a byte), and the rest of the access, if there is one, stays to be stored; each further step stores the next unit
(spec/20_memory.md R108; notes/assumptions/11.md). A ROM byte keeps its value (spec/93_implementation_defined.md U2). A load
inside one quad-word answers the bytes stored there, and so after a store of one unit the value, in either byte order (which
byte is which is general knowledge G3, PRESUMED: notes/assumptions/9.md). A load that crosses a quad-word loads the part in
the first one, and a second step, on the bytes as they are then, loads the rest and answers (11.md). -/
def Obligations.L1dStoreThenLoad : Prop :=
  ∀ (s : State) (a width : Nat) (v : BitVec 64), s.mem.wf = true →
    let bytes := bytesOf s.plat.endian v.toNat width
    (s.region a = .l1dRam → s.accessStop a width = none →
      s.allows (entryOf s.l1d.mppa (s.plat.l1d.page a)) s.plat.cpuId s.cpu.priv .write true = true →
      let k := if a % 4 = 0 ∧ 4 ≤ width then 4 else if a % 2 = 0 ∧ 2 ≤ width then 2 else 1
      ∃ t, cpuStore a width v s = .next t ∧
        t = { s with mem := t.mem, reply := .none
                     cpu := { s.cpu with rest := if k < width then some (.store (a + k) (bytes.drop k)) else none } } ∧
        (∀ i, i < k → s.plat.isRom (a + i) = false → some (t.mem.read (a + i)) = bytes[i]?) ∧
        (∀ b, (b < a ∨ a + k ≤ b ∨ s.plat.isRom b = true) → t.mem.read b = s.mem.read b) ∧
        (k = width → (∀ i, i < k → s.plat.isRom (a + i) = false) →
          s.allows (entryOf s.l1d.mppa (s.plat.l1d.page a)) s.plat.cpuId s.cpu.priv .read true = true →
          ∃ bs, cpuLoad a width t = .next { t with reply := .data bs } ∧ bs.length = width ∧
            valueOf s.plat.endian bs = v.toNat % 256 ^ width)) ∧
    (∀ bs, s.cpu.rest = some (.store a bs) → s.region a = .l1dRam →
      s.allows (entryOf s.l1d.mppa (s.plat.l1d.page a)) s.plat.cpuId s.cpu.priv .write true = true →
      let k := if a % 4 = 0 ∧ 4 ≤ bs.length then 4 else if a % 2 = 0 ∧ 2 ≤ bs.length then 2 else min bs.length 1
      ∃ t, s.accessMore = .ok t ∧
        t = { s with mem := t.mem
                     cpu := { s.cpu with rest := if k < bs.length then some (.store (a + k) (bs.drop k)) else none } } ∧
        (∀ i, i < k → s.plat.isRom (a + i) = false → some (t.mem.read (a + i)) = bs[i]?) ∧
        ∀ b, (b < a ∨ a + k ≤ b ∨ s.plat.isRom b = true) → t.mem.read b = s.mem.read b) ∧
    (s.region a = .l1dRam → s.accessStop a width = none → s.cpu.ahead = [] →
      s.allows (entryOf s.l1d.mppa (s.plat.l1d.page a)) s.plat.cpuId s.cpu.priv .read true = true →
      (a % 16 + width ≤ 16 → cpuLoad a width s =
        .next { s with cpu := { s.cpu with rest := none }, reply := .data (s.mem.readBytes a width) }) ∧
      (16 < a % 16 + width → let k := 16 - a % 16
        cpuLoad a width s = .next { s with
          cpu := { s.cpu with rest := some (.load (a + k) (width - k) (s.mem.readBytes a k)) }, reply := .none })) ∧
    ∀ n got, s.cpu.rest = some (.load a n got) → s.region a = .l1dRam → a % 16 + n ≤ 16 → s.cpu.ahead = [] →
      s.allows (entryOf s.l1d.mppa (s.plat.l1d.page a)) s.plat.cpuId s.cpu.priv .read true = true →
      s.accessMore = .ok { s with cpu := { s.cpu with rest := none }, reply := .data (got ++ s.mem.readBytes a n) }

/-- CPU accesses to L2 RAM and external memory (spec/41_l1d.md R225, R226, R228, R258, R259; spec/42_l2.md R286, R300, R301,
R303). A sleeping L2 page of the address wakes first, also where the access then hits in L1D or is queued (R336). A store that
hits in L1D is written there and makes the line dirty; one that misses sends a victim on its way first, then joins the write buffer, merged into its last entry where the two may merge or it continues one store, else as a new
entry, for which a full buffer drains its oldest. A load that hits answers the line's bytes; one that misses empties the
buffers first; in L2 RAM it then answers memory's bytes and, where it allocates, leaves a clean line with the permissions of
the page; a denied one records its fault and answers free bytes, allocates no line, and changes no line and no order of either
cache (spec/60_exceptions.md R523). The oldest entry of the buffer that its page allows stores
exactly its bytes in L2 RAM, but those in ROM. L2 serves external memory from its line, fills a line where it may allocate, a dirty one
in the way written out first (what that delivers: `WrittenBackLineStoresOnlyItsBytes`), else reads it, and merges a buffered
write into its line, which becomes dirty. A failed read answers unspecified data only (spec/20_memory.md R112), and no unit is
read ahead for a load from external memory before both buffers are empty (R130), nor for a line whose way still holds a dirty
line (R286). Which permission judges a line is
spec/92_eei_decisions.md D10 and D11; the model's choices are what merges or continues (notes/assumptions/13.md, 11.md), that
a wait is carried out inside the step (12.md), how an external address is judged (14.md), that L2 still reads for a
denied load (18.md), and that a transaction without an answer succeeds (22.md). -/
def Obligations.AccessesThroughTheCaches : Prop :=
  ∀ (s : State) (a : Nat), s.mem.wf = true →
    (s.region a = .l2Ram ∨ s.region a = .external →
      let w := if s.inL2Ram a then s.wakePages a else s
      (∀ n multi, s.loadPiece a n multi = .ok (w.loadCached a n multi)) ∧
      ∀ bs more, s.storePiece a bs more = .ok (w.storeCached a bs more)) ∧
    ((s.wakePages a).l2 = { s.l2 with sleep := (s.wakePages a).l2.sleep } ∧ s.wakePages a = { s with l2 := (s.wakePages a).l2 } ∧
      ∀ q : Fin 4, (s.wakePages a).l2.sleep[q] = (s.l2.sleep[q] && !(s.plat.l2.pdPages[q]).has a)) ∧
    (∀ (bs : List Byte) (l : Line), s.l1dLookup a = some l →
      s.allows l.perm s.plat.cpuId s.cpu.priv .write (s.inL2Ram a) = true →
      ∀ more, s.storeCached a bs more = s.setL1d { (s.l1d.touch l.set l.way) with
        lines := putLine s.l1d.lines { l with data := overlay l.data (a % 64) (bs.map some), dirty := true } }) ∧
    (∀ (n : Nat) (l : Line), s.l1dLookup a = some l → s.allows l.perm s.plat.cpuId s.cpu.priv .read (s.inL2Ram a) = true →
      s.loadCached a n false = (s.setL1d (s.l1d.touch l.set l.way), slice l.data (a % 64) n)) ∧
    (∀ (n : Nat) (multi : Bool) (l : Line), s.l1dLookup a = some l →
      s.allows l.perm s.plat.cpuId s.cpu.priv .read (s.inL2Ram a) = false →
      s.loadCached a n multi = ({ s.recordFault .l1d .local a s.cpu.priv .read s.plat.cpuId with free := s.free + 1 },
        (List.range n).map fun i => Config.freeByte s.free i)) ∧
    (∀ (bs : List Byte) (more : Bool), s.l1dLookup a = none →
      s.storeCached a bs more = s.drainVictim.storeCached a bs more ∧ s.drainVictim.l1d = { s.l1d with victim := none }) ∧
    (∀ (bs : List Byte) (more : Bool), s.l1dLookup a = none → s.l1d.victim = none →
      let new : WbEntry := { quad := a / 16 * 16, first := a, bytes := quadMask (a % 16) bs, priv := s.cpu.priv }
      let joins := fun e : WbEntry => s.merges e a s.cpu.priv || (more && e.continues a s.cpu.priv)
      (∀ e, s.l1d.wbuf.getLast? = some e → joins e = true → s.storeCached a bs more = { s with l1d := { s.l1d with
        wbuf := s.l1d.wbuf.dropLast ++ [{ e with bytes := mergeMask e.bytes new.bytes }] } }) ∧
      (s.l1d.wbuf.length < 4 → (∀ e, s.l1d.wbuf.getLast? = some e → joins e = false) →
        s.storeCached a bs more = { s with l1d := { s.l1d with wbuf := s.l1d.wbuf ++ [new] } }) ∧
      (4 ≤ s.l1d.wbuf.length → (∀ e, s.l1d.wbuf.getLast? = some e → joins e = false) →
        s.storeCached a bs more = { s.drainOne with l1d := { s.l1d with wbuf := s.l1d.wbuf.tail ++ [new] } })) ∧
    (∀ (n : Nat) (multi : Bool), s.l1dLookup a = none →
      s.loadCached a n multi = s.drainAll.loadCached a n multi ∧ s.drainAll.l1d = { s.l1d with victim := none, wbuf := [] }) ∧
    (∀ (n : Nat) (multi : Bool), s.l1dLookup a = none → s.l1d.victim = none → s.l1d.wbuf = [] →
      s.allows (s.l2Perm a) s.plat.cpuId s.cpu.priv .read (s.inL2Ram a) = false →
      ∃ u : State, s.loadCached a n multi = ({ u.recordFault .l1d .local a s.cpu.priv .read s.plat.cpuId with free := u.free + 1 },
          (List.range n).map fun i => Config.freeByte u.free i) ∧
        u.l1p = s.l1p ∧ u.l1d = s.l1d ∧ u.l2.lines = s.l2.lines ∧ u.l2.lru = s.l2.lru ∧
        (s.l2.out = none → u.mem = s.mem) ∧
        (s.inL2Ram a = true → s.l1dAllocates a = false → u = s.wakePages a)) ∧
    (∀ e rest, s.l1d.victim = none → s.l1d.wbuf = e :: rest → s.inL2Ram e.first = true →
      s.allows (s.l2Perm e.first) s.plat.cpuId e.priv .write true = true →
      ∃ t, s.drainOne = t ∧
        t = { s with l1d := { s.l1d with wbuf := rest }, l2 := { s.l2 with sleep := t.l2.sleep }, mem := t.mem
                     emc := { s.emc with fills := dropKind .drainFill s.emc.fills } } ∧
        (∀ i b, e.bytes[i]? = some (some b) → s.plat.isRom (e.quad + i) = false → t.mem.read (e.quad + i) = b) ∧
        ∀ c, (s.plat.isRom c = true ∨ ∀ i b, e.bytes[i]? = some (some b) → c ≠ e.quad + i) → t.mem.read c = s.mem.read c) ∧
    (∀ n, s.l1dLookup a = none → s.l1d.victim = none → s.l1d.wbuf = [] → s.inL2Ram a = true → s.inL2Ram (a / 64 * 64) = true →
      s.allows (s.l2Perm a) s.plat.cpuId s.cpu.priv .read true = true →
      (s.l1dAllocates a = false → s.loadCached a n false = (s.wakePages a, s.mem.readBytes a n)) ∧
      (s.l1dAllocates a = true → ∃ t l, s.loadCached a n false = (t, slice (s.mem.readBytes (a / 64 * 64) 64) (a % 64) n) ∧
        t.mem = s.mem ∧ t.l1d.lines.head? = some l ∧ l.set = setOf .l1d s.l1dSets a ∧ l.tag = tagOf .l1d s.l1dSets a ∧
        l.dirty = false ∧ l.data = s.mem.readBytes (a / 64 * 64) 64 ∧ l.perm = s.l2Perm a)) ∧
    (∀ k n p l, s.inL2Ram a = false → s.l2Lookup a = some l →
      s.l2Read k a n p = (s.setL2 (s.l2.touch l.set l.way), slice l.data (a % 128) n)) ∧
    (∀ k n p, s.inL2Ram a = false → s.l2Lookup a = none → s.mayAllocateL2 a = true → s.aheadOf k = [] →
      let out := lineAt s.l2.lines (setOf .l2 s.l2Sets a) ((s.l2.order (setOf .l2 s.l2Sets a)).headD 0)
      let u := match out with
        | some l => if l.dirty then s.finishOut.extWriteLine (l.out .l2 s.l2Sets) else s.finishOut
        | none => s.finishOut
      u.emc.replies.head? ∈ [none, some .ok] →
      ∃ t l, s.l2Read k a n p = (t, slice (u.mem.readBytes (a / 128 * 128) 128) (a % 128) n) ∧ t.mem = u.mem ∧
        t.l2.lines.head? = some l ∧ l.set = setOf .l2 s.l2Sets a ∧ l.tag = tagOf .l2 s.l2Sets a ∧ l.dirty = false ∧
        l.data = u.mem.readBytes (a / 128 * 128) 128) ∧
    (∀ k n p, s.inL2Ram a = false → s.l2Lookup a = none → s.mayAllocateL2 a = false →
      (s.aheadOf k = [] → s.finishOut.emc.replies.head? ∈ [none, some .ok] →
        (s.l2Read k a n p).2 = s.finishOut.mem.readBytes a n ∧ (s.l2Read k a n p).1.mem = s.finishOut.mem) ∧
      ∀ x stat rest, s.finishOut.emc.replies = .error x stat :: rest →
        (s.l2Read k a n p).2 = (List.range n).map fun i => Config.freeByte s.finishOut.free i) ∧
    (∀ n multi x stat rest, s.l1dLookup a = none → s.l1d.victim = none → s.l1d.wbuf = [] → s.inL2Ram a = false →
      s.l2Lookup a = none → s.mayAllocateL2 a = false → s.l1dAllocates a = false →
      s.allows (s.l2Perm a) s.plat.cpuId s.cpu.priv .read false = true →
      s.finishOut.emc.replies = .error x stat :: rest →
      (s.loadCached a n multi).2 = (List.range n).map fun i => Config.freeByte s.finishOut.free i) ∧
    (∀ n, s.l1d.wbuf ≠ [] ∨ s.l1d.victim ≠ none → s.readAhead .loadFill a n = s) ∧
    (∀ n l, ∀ k ∈ [AheadKind.loadFill, .fetchFill, .drainFill], s.mayAllocateL2 a = true → l.dirty = true →
      lineAt s.l2.lines (setOf .l2 s.l2Sets a) ((s.l2.order (setOf .l2 s.l2Sets a)).headD 0) = some l →
      s.readAhead k a n = s) ∧
    (∀ e l, s.inL2Ram e.first = false → s.region e.first = .external → s.l2Lookup e.first = some l →
      s.allows (s.l2Perm e.first) s.plat.cpuId e.priv .write false = true →
      (s.l2Write e).mem = s.mem ∧ (s.l2Write e).l2.lines =
        putLine s.l2.lines { l with data := overlay l.data (e.quad % 128) e.bytes, dirty := true })

/-- A CPU store that its L1D RAM page or its L1D line denies changes no byte of memory, no cache line and no buffer: it
completes, and a local write fault is recorded; a sleeping L2 page of its address is awake then (spec/42_l2.md R336). A buffered write that L2 denies, at L2 RAM or at a line of its cache,
changes no byte of memory and no cache line, and L2 records a local write fault. Which permission a line carries is
spec/92_eei_decisions.md D10 with spec/42_l2.md R342, and that of an external address is D11. That a CPU access judged by the
permission of an external address is judged by its requestor ID, as not local, is the model's choice (DEDUCED:
notes/assumptions/14.md). -/
def Obligations.DeniedStoreChangesNoData : Prop :=
  (∀ (s : State) (a : Nat) (bs : List Byte) (more : Bool),
    (s.region a = .l1dRam →
        s.allows (entryOf s.l1d.mppa (s.plat.l1d.page a)) s.plat.cpuId s.cpu.priv .write true = false) →
    (s.region a ≠ .l1dRam → (s.region a = .l2Ram ∨ s.region a = .external) ∧
        ∃ l, s.l1dLookup a = some l ∧ s.allows l.perm s.plat.cpuId s.cpu.priv .write (s.inL2Ram a) = false) →
    let w := if s.region a ≠ .l1dRam ∧ s.inL2Ram a = true then s.wakePages a else s
    ∃ t, s.storePiece a bs more = .ok t ∧ t = w.recordFault .l1d .local a s.cpu.priv .write s.plat.cpuId ∧ KeepsData s t) ∧
  ∀ (s : State) (e : WbEntry),
    (s.inL2Ram e.first = true ∨ (s.region e.first = .external ∧
      ((s.l2Lookup e.first).isSome = true ∨ s.mayAllocateL2 e.first = true))) →
    s.allows (s.l2Perm e.first) s.plat.cpuId e.priv .write (s.inL2Ram e.first) = false →
    s.l2Write e = (if s.inL2Ram e.first then s.wakePages e.first else s).recordFault .l2 .local e.first e.priv .write s.plat.cpuId ∧
      (s.l2Write e).mem = s.mem ∧ (s.l2Write e).l1p = s.l1p ∧ (s.l2Write e).l1d = s.l1d ∧ (s.l2Write e).l2.lines = s.l2.lines

/-! ### Reset -/

/-- Every register of the spec's reset table, every line, buffer, transfer and operation, the locks, the arbitration
counters, the power-down state and the sampled inputs after reset, on the reference platform (spec/70_reset_and_hazards.md
R560, R562 to R565; the reset values printed nowhere: spec/92_eei_decisions.md D22; the platform's values of the modes and
page attributes: notes/assumptions/3.md; the values that the model names: 5.md, 7.md, 20.md). -/
def Obligations.ResetState : Prop :=
  let s := State.reset
  s.intc.evtFlag = #v[0#32, 0#32, 0#32, 0#32] ∧ s.intc.evtMask = #v[0x0000000F#32, 0#32, 0#32, 0#32] ∧
  s.intc.expMask = #v[0xFFFFFFFF#32, 0xFFFFFFFF#32, 0xFFFFFFFF#32, 0xFFFFFFFF#32] ∧
  s.intc.intMux = #v[0x07060504#32, 0x0B0A0908#32, 0x0F0E0D0C#32] ∧ s.intc.intXStat = 0#32 ∧ s.intc.intDMask = 0#32 ∧
  s.intc.aegMux = #v[0x03020100#32, 0x07060504#32] ∧
  s.pdc.megpd = false ∧ s.emc.busErr = 0#32 ∧
  s.idma0.mask = 0#32 ∧ s.idma0.source = 0#32 ∧ s.idma0.dest = 0#32 ∧ s.idma0.count = 0#32 ∧
  s.idma1.source = 0#32 ∧ s.idma1.dest = 0#32 ∧ s.idma1.count = 0#32 ∧
  s.idma0.active = none ∧ s.idma0.pending = none ∧ s.idma1.active = none ∧ s.idma1.pending = none ∧
  s.bwm.cpuarbd = 0x00010010#32 ∧ s.bwm.cpuarbu = 0x00010010#32 ∧ s.bwm.cpuarbe = 0x00010010#32 ∧
  s.bwm.idmaarbd = 0x10#32 ∧ s.bwm.idmaarbu = 0x10#32 ∧ s.bwm.idmaarbe = 0x10#32 ∧
  s.bwm.sdmaarbd = 1#32 ∧ s.bwm.sdmaarbu = 1#32 ∧ s.bwm.sdmaarbe = 1#32 ∧
  s.bwm.ucarbd = 0x20#32 ∧ s.bwm.ucarbu = 0x20#32 ∧ s.bwm.mdmaarbe = 0x00070000#32 ∧
  s.l1p.lines = [] ∧ s.l1d.lines = [] ∧ s.l2.lines = [] ∧ s.l1d.wbuf = [] ∧ s.l1d.victim = none ∧ s.l2.out = none ∧
  s.l1p.op = none ∧ s.l1d.op = none ∧ s.l2.op = none ∧
  s.l1p.oper = false ∧ s.l1p.poper = false ∧ s.l1d.oper = false ∧ s.l1d.poper = false ∧
  s.l2.mode = 0#3 ∧ s.l2.cc = false ∧ s.l2.mar = Vector.replicate 256 false ∧ s.l2.sleep = Vector.replicate 4 false ∧
  s.mpL2.far = 0#32 ∧ s.mpL1P.fsr = 0#32 ∧ s.mpL1D.fsr = 0#32 ∧ s.mpL2.fsr = 0#32 ∧
  s.mpL1P.lock.lk = false ∧ s.mpL1D.lock.lk = false ∧ s.mpL2.lock.lk = false ∧
  s.l1p.mode = 0#3 ∧ s.l1d.mode = 0#3 ∧
  s.l1p.mppa = Vector.replicate 32 0x0000FF3F#32 ∧ s.l1d.mppa = Vector.replicate 32 0x0000FF36#32 ∧
  s.l2.mppa = Vector.replicate 64 0x0000FF3F#32 ∧
  (∀ x, (s.mp x).lock.armed = false ∧ (s.mp x).lock.seen = Vector.replicate 4 false) ∧
  s.mpL1P.farKnown = false ∧ s.mpL1D.farKnown = false ∧ s.mpL2.farKnown = true ∧
  s.bwm.cnt = Vector.replicate 16 0 ∧ s.emc.bursts = [] ∧ s.emc.fills = [] ∧
  s.pdc.mmAsleep = false ∧ s.pdc.l1pAsleep = false ∧ s.pdc.l1dAsleep = false ∧ s.pdc.l2Asleep = false ∧ s.pdc.sploop = false ∧
  s.cpu.running = true ∧ s.cpu.idle = false ∧ s.cpu.gee = false ∧ s.cpu.ifr = 0#16 ∧ s.cpu.prevInt = 0#16 ∧
  s.cpu.prevExcep = false ∧ s.cpu.rest = none ∧ s.cpu.issued = none ∧ s.cpu.ahead = [] ∧ s.mem.cells = [] ∧ s.mem.lost = []

/-- A global reset gives every register, cache, buffer, transfer, operation and lock its reset value on the platform at hand
and keeps every byte outside the RAM of L1P, L1D and L2, the ROM bytes inside those memories too
(spec/70_reset_and_hazards.md R560, R566; notes/assumptions/27.md). That it cuts off slave DMA transactions under way is the
model's choice (notes/assumptions/24.md). -/
def Obligations.GlobalResetRestoresTheRegisters : Prop :=
  ∀ s : State,
    s.globalReset = { State.resetOf s.plat with
      emc := { (State.resetOf s.plat).emc with replies := s.emc.replies }
      mem := s.globalReset.mem, agenda := s.agenda, free := s.globalReset.free } ∧
    ∀ a, ((s.plat.l1p.has a = false ∧ s.plat.l1d.has a = false ∧ s.plat.l2.inPort0 a = false ∧ s.plat.l2.inPort1 a = false) ∨
        s.plat.isRom a = true) →
      s.globalReset.mem.read a = s.mem.read a

/-- A local reset leaves the cache modes, every other register and every byte of memory as they are, and leaves every line
invalid, the buffers empty, no IDMA transfer and no coherence operation (spec/92_eei_decisions.md D30). That it keeps the
CPU with an access under way, the replacement order, the lock sequences, and slave DMA transactions under way, and drops a
line that L2 has evicted and what was read for a drain, is the model's reading (DEDUCED: notes/assumptions/27.md, 24.md). -/
def Obligations.LocalResetOnlyEmptiesTheCaches : Prop :=
  ∀ s : State, s.localReset = { s with
    l1p := { s.l1p with lines := [], op := none }
    l1d := { s.l1d with lines := [], wbuf := [], victim := none, op := none }
    l2 := { s.l2 with lines := [], out := none, op := none }
    emc := { s.emc with fills := dropKind .drainFill s.emc.fills }
    idma0 := { s.idma0 with active := none, pending := none }
    idma1 := { s.idma1 with active := none, pending := none } }

/-! ### The whole machine -/

/-- Every step from a state with the invariant leads to a state with it: memory stays in canonical form, the stuck and
reserved bits of the event, page attribute, arbitration and IDMA registers stay as the spec fixes them, the write buffer
holds at most 4 entries, no transfer is pending behind none, at most one program-initiated coherence operation is in
progress (spec/42_l2.md R306), no two lines of a cache stand in one frame (spec/10_state.md R87, R88, R90), and the platform
stays a legal one. -/
def Obligations.EveryStepKeepsTheInvariant : Prop :=
  ∀ s t : State, s.Inv → step s = .next t → t.Inv

/-- The invariant holds right after reset. -/
def Obligations.ResetHasTheInvariant : Prop := State.reset.Inv

/-- A step takes exactly the first action off the agenda and never changes the platform parameters (that the agenda
chooses the agent that steps is the model's: notes/assumptions/1.md). -/
def Obligations.StepTakesOneActionAndKeepsThePlatform : Prop :=
  ∀ s t : State, step s = .next t → t.agenda = s.agenda.tail ∧ t.plat = s.plat

/-- Only the CPU changes its privilege: no register command, access, engine step, event or platform input does, only the
CPU's own change and a global reset (whether taking an interrupt or an exception changes it is not stated, N12: the model
makes the change an input of the CPU's own, notes/assumptions/7.md). -/
def Obligations.PrivilegeChangesOnlyByTheCpu : Prop :=
  ∀ s t : State, step s = .next t → (∀ p, s.agenda.head? ≠ some (.setPriv p)) → s.agenda.head? ≠ some .globalReset →
    t.cpu.priv = s.cpu.priv

/-- No register command that fails the privilege check, so none of user code on a device with memory protection, changes a
cache mode, a `MAR`, a page attribute, a lock, an arbitration register, an interrupt controller mask or selector, the drop
record, or `MEGPD`. -/
def Obligations.UserCommandsKeepSupervisorState : Prop :=
  ∀ (i : Instr) (s t : State), s.mayWrite = false → exec i s = .next t → t.supervised = s.supervised

/-- A register command other than a write of a cache configuration or coherence register changes no byte of memory, no cache
line, no buffer of L1D and nothing of the CPU. -/
def Obligations.OnlyCacheCommandsMoveData : Prop :=
  ∀ (i : Instr) (s t : State), ¬ movesCacheData i → exec i s = .next t → KeepsData s t

/-- On a device without memory protection every access to a memory protection register is refused by name, and on one without
the emulation block every access to `AEGMUXn` (the model's choice: notes/assumptions/3.md, 33.md). -/
def Obligations.AbsentRegistersAreRefused : Prop :=
  ∀ (s : State) (v : Word),
    (s.plat.hasMp = false → ∀ r, r ∈ [Reg.l1pmpfar, .l1pmpfsr, .l1pmpfcr, .l1pmplkcmd, .l1pmplkstat, .l1dmpfar, .l1dmpfsr,
        .l1dmpfcr, .l1dmplkcmd, .l1dmplkstat, .l2mpfar, .l2mpfsr, .l2mpfcr, .l2mplkcmd, .l2mplkstat] ∨
        (∃ n : Fin 4, r ∈ [Reg.l1pmplk n, .l1dmplk n, .l2mplk n]) ∨ (∃ n : Fin 32, r ∈ [Reg.l1pmppa n, .l1dmppa n]) ∨
        (∃ n : Fin 64, r = .l2mppa n) →
      exec r.read s = .refused (.noSuchRegister r.addr) ∧ exec (r.write v) s = .refused (.noSuchRegister r.addr)) ∧
    (s.plat.hasAet = false → ∀ n : Fin 2,
      exec (.aegmuxRead n) s = .refused (.noSuchRegister ((Reg.aegmux n).addrOn s.plat.aegmuxBase)) ∧
      exec (.aegmuxWrite n v) s = .refused (.noSuchRegister ((Reg.aegmux n).addrOn s.plat.aegmuxBase)))
end

