-- ==== Sys2Proof/Laws/Memory.lean ====
section
/-!
SUPPORT. Memory: every operation keeps the canonical form, and a read after a write gives what was written, or what stood
there before.
-/
namespace Sys2Proof.Machine

theorem rising_iff (l : List Host.Cell) : rising l = true ↔ l.Pairwise fun p q => p.1 < q.1 := by
  induction l with
  | nil => simp [rising]
  | cons p t ih =>
    cases t with
    | nil => simp [rising]
    | cons q u =>
      have e : rising (p :: q :: u) = (decide (p.1 < q.1) && rising (q :: u)) := rfl
      rw [e, Bool.and_eq_true, ih, List.pairwise_cons (l := q :: u), decide_eq_true_iff]
      refine and_congr_left fun hp => ⟨fun h r hr => ?_, fun h => h q (by simp)⟩
      rcases List.mem_cons.1 hr with rfl | hr
      · exact h
      · exact lt_trans h ((List.pairwise_cons.1 hp).1 r hr)

theorem Memory.wf_iff (m : Memory) :
    m.wf = true ↔ (m.cells.Pairwise fun p q => p.1 < q.1) ∧ ∀ p ∈ m.cells, p.2 ≠ m.unlisted p.1 := by
  simp [Memory.wf, rising_iff]

theorem mem_insertCell {l : List Host.Cell} {a : Nat} {b : Byte} {p : Host.Cell} (h : p ∈ insertCell l a b) :
    p = (a, b) ∨ p ∈ l := by
  induction l with
  | nil => simpa [insertCell] using h
  | cons q t ih =>
    obtain ⟨c, x⟩ := q
    unfold insertCell at h
    split_ifs at h with h1 h2
    · rcases List.mem_cons.1 h with h | h
      · exact .inl h
      · exact .inr h
    · rcases List.mem_cons.1 h with h | h
      · exact .inl h
      · exact .inr (List.mem_cons_of_mem _ h)
    · rcases List.mem_cons.1 h with h | h
      · exact .inr (h ▸ List.mem_cons_self)
      · exact (ih h).imp_right (List.mem_cons_of_mem _)

theorem insertCell_sorted {l : List Host.Cell} (hl : l.Pairwise fun p q => p.1 < q.1) (a : Nat) (b : Byte) :
    (insertCell l a b).Pairwise fun p q => p.1 < q.1 := by
  induction l with
  | nil => simp [insertCell]
  | cons q t ih =>
    obtain ⟨c, x⟩ := q
    obtain ⟨hc, ht⟩ := List.pairwise_cons.1 hl
    unfold insertCell
    split_ifs with h1 h2
    · refine List.pairwise_cons.2 ⟨fun r hr => ?_, hl⟩
      rcases List.mem_cons.1 hr with rfl | hr
      · exact h1
      · exact lt_trans h1 (hc r hr)
    · exact List.pairwise_cons.2 ⟨fun r hr => h2 ▸ hc r hr, ht⟩
    · refine List.pairwise_cons.2 ⟨fun r hr => ?_, ih ht⟩
      rcases mem_insertCell hr with rfl | hr
      · show c < a
        omega
      · exact hc r hr

@[simp] theorem Memory.unlisted_cells (m : Memory) (l : List Host.Cell) (a : Nat) :
    ({ m with cells := l } : Memory).unlisted a = m.unlisted a := rfl

@[simp] theorem Memory.write_lost (m : Memory) (a : Nat) (b : Byte) : (m.write a b).lost = m.lost := by
  unfold Memory.write; split_ifs <;> rfl

@[simp] theorem Memory.write_unlisted (m : Memory) (a c : Nat) (b : Byte) : (m.write a b).unlisted c = m.unlisted c := by
  simp [Memory.unlisted]

/-- A write keeps the canonical form. -/
theorem Memory.write_wf {m : Memory} (h : m.wf = true) (a : Nat) (b : Byte) : (m.write a b).wf = true := by
  rw [Memory.wf_iff] at h ⊢
  unfold Memory.write
  split_ifs with hb
  · exact ⟨h.1.filter _, fun p hp => h.2 p (List.mem_of_mem_filter hp)⟩
  · refine ⟨insertCell_sorted h.1 a b, fun p hp => ?_⟩
    rcases mem_insertCell hp with rfl | hp
    · exact hb
    · exact h.2 p hp

theorem Memory.writeBytes_wf {m : Memory} (h : m.wf = true) (a : Nat) (bs : List Byte) : (m.writeBytes a bs).wf = true := by
  induction bs generalizing m a with
  | nil => exact h
  | cons b t ih => exact ih (Memory.write_wf h a b) (a + 1)

theorem Memory.writeMasked_wf {m : Memory} (h : m.wf = true) (a : Nat) (bs : List (Option Byte)) :
    (m.writeMasked a bs).wf = true := by
  induction bs generalizing m a with
  | nil => exact h
  | cons b t ih =>
    cases b with
    | none => exact ih h (a + 1)
    | some b => exact ih (Memory.write_wf h a b) (a + 1)

theorem Memory.unlisted_forget (m : Memory) (l : Lost) (a : Nat) (h : l.has a = false) :
    (m.forget l).unlisted a = m.unlisted a := by
  simp [Memory.unlisted, Memory.forget, h]

/-- Losing the contents of a range keeps the canonical form. -/
theorem Memory.forget_wf {m : Memory} (h : m.wf = true) (l : Lost) : (m.forget l).wf = true := by
  rw [Memory.wf_iff] at h ⊢
  refine ⟨h.1.filter _, fun p hp => ?_⟩
  obtain ⟨hp, hl⟩ := List.mem_filter.1 hp
  rw [Memory.unlisted_forget m l p.1 (by simpa using hl)]
  exact h.2 p hp

theorem lookup_insertCell (l : List Host.Cell) (a c : Nat) (b : Byte) (hl : l.Pairwise fun p q => p.1 < q.1) :
    (insertCell l a b).lookup c = if c = a then some b else l.lookup c := by
  induction l with
  | nil =>
    by_cases h : c = a
    · subst h; simp [insertCell]
    · simp [insertCell, List.lookup, h, beq_eq_false_iff_ne.2 h]
  | cons q t ih =>
    obtain ⟨d, x⟩ := q
    obtain ⟨hd, ht⟩ := List.pairwise_cons.1 hl
    by_cases h1 : a < d
    · rw [insertCell, if_pos h1, List.lookup_cons]
      by_cases h : c = a
      · simp [h]
      · simp [h, beq_eq_false_iff_ne.2 h]
    · by_cases h2 : a = d
      · subst h2
        rw [insertCell, if_neg h1, if_pos rfl, List.lookup_cons, List.lookup_cons]
        by_cases h : c = a
        · simp [h]
        · simp [h, beq_eq_false_iff_ne.2 h]
      · rw [insertCell, if_neg h1, if_neg h2, List.lookup_cons, List.lookup_cons, ih ht]
        by_cases h : c = d
        · subst h; simp [Ne.symm h2]
        · simp [beq_eq_false_iff_ne.2 h]

theorem lookup_removeCell (l : List Host.Cell) (a c : Nat) :
    (removeCell l a).lookup c = if c = a then none else l.lookup c := by
  induction l with
  | nil => simp [removeCell]
  | cons q t ih =>
    obtain ⟨d, x⟩ := q
    unfold removeCell at ih ⊢
    by_cases hd : d = a
    · subst hd
      rw [List.filter_cons_of_neg (by simp), ih]
      by_cases h : c = d
      · simp [h]
      · simp [h, List.lookup_cons, beq_eq_false_iff_ne.2 h]
    · rw [List.filter_cons_of_pos (by simpa using hd), List.lookup_cons, List.lookup_cons, ih]
      by_cases h : c = d
      · subst h; simp [hd]
      · simp [beq_eq_false_iff_ne.2 h]

/-- A read after a write: the byte written at its address, and every other byte as before. -/
theorem Memory.read_write {m : Memory} (h : m.wf = true) (a c : Nat) (b : Byte) :
    (m.write a b).read c = if c = a then b else m.read c := by
  have hs := ((Memory.wf_iff m).1 h).1
  unfold Memory.read
  rw [Memory.write_unlisted]
  unfold Memory.write
  split_ifs with hb hc hc
  · subst hc; simp [lookup_removeCell, hb]
  · simp [lookup_removeCell, hc]
  · subst hc; simp [lookup_insertCell _ _ _ _ hs]
  · simp [lookup_insertCell _ _ _ _ hs, hc]

/-- A write of bytes leaves every address outside them as it was. -/
theorem Memory.read_writeBytes_outside {m : Memory} (h : m.wf = true) (a c : Nat) (bs : List Byte)
    (hc : c < a ∨ a + bs.length ≤ c) : (m.writeBytes a bs).read c = m.read c := by
  induction bs generalizing m a with
  | nil => rfl
  | cons b t ih =>
    simp only [List.length_cons] at hc
    rw [Memory.writeBytes, ih (Memory.write_wf h a b) (a + 1) (by omega), Memory.read_write h, if_neg (by omega)]

/-- A read of a byte that a write of bytes stored gives that byte. -/
theorem Memory.read_writeBytes_inside {m : Memory} (h : m.wf = true) (a i : Nat) (bs : List Byte) (hi : i < bs.length) :
    some ((m.writeBytes a bs).read (a + i)) = bs[i]? := by
  induction bs generalizing m a i with
  | nil => simp at hi
  | cons b t ih =>
    rw [Memory.writeBytes]
    cases i with
    | zero => rw [Nat.add_zero, Memory.read_writeBytes_outside (Memory.write_wf h a b) _ _ _ (by omega), Memory.read_write h]; simp
    | succ i =>
      have := ih (Memory.write_wf h a b) (a + 1) i (by simpa using hi)
      rw [show a + (i + 1) = a + 1 + i by omega, this]
      simp

/-- A read of the bytes just written gives them. -/
theorem Memory.readBytes_writeBytes {m : Memory} (h : m.wf = true) (a : Nat) (bs : List Byte) :
    (m.writeBytes a bs).readBytes a bs.length = bs := by
  induction bs generalizing m a with
  | nil => rfl
  | cons b t ih =>
    have hb := Memory.read_writeBytes_inside h a 0 (b :: t) (by simp)
    rw [List.length_cons, Memory.readBytes]
    rw [Nat.add_zero] at hb
    rw [Option.some.inj (hb.trans (by simp) : _ = some b)]
    exact congrArg _ (ih (Memory.write_wf h a b) (a + 1))

/-- A read after a masked write: a byte the mask has is read, every other byte is as before. -/
theorem Memory.read_writeMasked {m : Memory} (h : m.wf = true) (a c : Nat) (bs : List (Option Byte)) :
    (m.writeMasked a bs).read c = ((if a ≤ c then bs[c - a]?.join else none).getD (m.read c)) := by
  induction bs generalizing m a with
  | nil => simp [Memory.writeMasked]
  | cons b t ih =>
    have step : ∀ n : Memory, n.wf = true → (∀ c, c ≠ a → n.read c = m.read c) → n.read a = b.getD (m.read a) →
        (n.writeMasked (a + 1) t).read c = ((if a ≤ c then (b :: t)[c - a]?.join else none).getD (m.read c)) := by
      intro n hn ho ha
      rw [ih hn]
      rcases Nat.lt_trichotomy c a with hc | rfl | hc
      · rw [if_neg (by omega), if_neg (by omega)]; exact ho c (by omega)
      · rw [if_neg (by omega), if_pos le_rfl]; simpa using ha
      · rw [if_pos (by omega), if_pos (by omega), show c - a = c - (a + 1) + 1 by omega, ho c (by omega)]; simp
    cases b with
    | none => exact step m h (fun _ _ => rfl) rfl
    | some x =>
      exact step _ (Memory.write_wf h a x) (fun c hc => by rw [Memory.read_write h, if_neg hc])
        (by rw [Memory.read_write h, if_pos rfl]; rfl)

/-- Storing to a memory of the megamodule keeps the canonical form. -/
theorem State.putMasked_wf {s : State} (h : s.mem.wf = true) (a : Nat) (bs : List (Option Byte)) :
    (s.putMasked a bs).mem.wf = true := Memory.writeMasked_wf h a _

theorem State.putBytes_wf {s : State} (h : s.mem.wf = true) (a : Nat) (bs : List Byte) : (s.putBytes a bs).mem.wf = true :=
  State.putMasked_wf h a _

/-- What a store to a memory of the megamodule does to each byte: those of the mask outside ROM are stored. -/
theorem State.putMasked_read {s : State} (h : s.mem.wf = true) (a c : Nat) (bs : List (Option Byte)) :
    (s.putMasked a bs).mem.read c =
      if s.plat.isRom c then s.mem.read c else ((if a ≤ c then bs[c - a]?.join else none).getD (s.mem.read c)) := by
  unfold State.putMasked Platform.maskRom
  show (s.mem.writeMasked a _).read c = _
  rw [Memory.read_writeMasked h]
  by_cases hc : a ≤ c
  · rw [if_pos hc, if_pos hc, List.getElem?_mapIdx, show a + (c - a) = c by omega]
    cases bs[c - a]? <;> cases s.plat.isRom c <;> simp
  · simp [hc]

/-- A byte outside the stored ones, or in ROM, is as before. -/
theorem State.putBytes_read_outside {s : State} (h : s.mem.wf = true) (a c : Nat) (bs : List Byte)
    (hc : c < a ∨ a + bs.length ≤ c ∨ s.plat.isRom c = true) : (s.putBytes a bs).mem.read c = s.mem.read c := by
  unfold State.putBytes
  rw [State.putMasked_read h]
  split_ifs with hr ha
  · rfl
  · rw [List.getElem?_eq_none (by rcases hc with hc | hc | hc <;> simp_all <;> omega)]; rfl
  · rfl

/-- A stored byte outside ROM is read back. -/
theorem State.putBytes_read_inside {s : State} (h : s.mem.wf = true) (a i : Nat) (bs : List Byte) (hi : i < bs.length)
    (hr : s.plat.isRom (a + i) = false) : some ((s.putBytes a bs).mem.read (a + i)) = bs[i]? := by
  unfold State.putBytes
  rw [State.putMasked_read h, if_neg (by simp [hr]), if_pos (by omega), show a + i - a = i by omega]
  simp [hi]

theorem State.forget_wf {s : State} (h : s.mem.wf = true) (r : Span) : (s.forget r).mem.wf = true := by
  unfold State.forget; split_ifs
  · exact h
  · exact Memory.forget_wf h _

/-- The bytes a platform chooses leave memory in canonical form. -/
theorem Memory.foldl_write_wf (l : List (Nat × Byte)) {m : Memory} (h : m.wf = true) :
    (l.foldl (fun m e => m.write e.1 e.2) m).wf = true := by
  induction l generalizing m with
  | nil => exact h
  | cons e t ih => exact ih (Memory.write_wf h e.1 e.2)

/-- Reset memory is in canonical form, on every platform. -/
theorem State.resetOf_mem_wf (p : Platform) : (State.resetOf p).mem.wf = true := Memory.foldl_write_wf p.initial rfl

end Sys2Proof.Machine
end

