-- ==== Sys2Proof/Laws/State.lean ====
section
/-!
SUPPORT. What each named update of the state does to each field: one lemma for each pair.
-/
namespace Sys2Proof.Machine.State

variable (s : State)

@[simp] theorem setCpu_plat (x : Cpu) : (s.setCpu x).plat = s.plat := rfl
@[simp] theorem setCpu_cpu (x : Cpu) : (s.setCpu x).cpu = x := rfl
@[simp] theorem setCpu_intc (x : Cpu) : (s.setCpu x).intc = s.intc := rfl
@[simp] theorem setCpu_pdc (x : Cpu) : (s.setCpu x).pdc = s.pdc := rfl
@[simp] theorem setCpu_idma0 (x : Cpu) : (s.setCpu x).idma0 = s.idma0 := rfl
@[simp] theorem setCpu_idma1 (x : Cpu) : (s.setCpu x).idma1 = s.idma1 := rfl
@[simp] theorem setCpu_bwm (x : Cpu) : (s.setCpu x).bwm = s.bwm := rfl
@[simp] theorem setCpu_emc (x : Cpu) : (s.setCpu x).emc = s.emc := rfl
@[simp] theorem setCpu_l1p (x : Cpu) : (s.setCpu x).l1p = s.l1p := rfl
@[simp] theorem setCpu_l1d (x : Cpu) : (s.setCpu x).l1d = s.l1d := rfl
@[simp] theorem setCpu_l2 (x : Cpu) : (s.setCpu x).l2 = s.l2 := rfl
@[simp] theorem setCpu_mpL1P (x : Cpu) : (s.setCpu x).mpL1P = s.mpL1P := rfl
@[simp] theorem setCpu_mpL1D (x : Cpu) : (s.setCpu x).mpL1D = s.mpL1D := rfl
@[simp] theorem setCpu_mpL2 (x : Cpu) : (s.setCpu x).mpL2 = s.mpL2 := rfl
@[simp] theorem setCpu_mem (x : Cpu) : (s.setCpu x).mem = s.mem := rfl
@[simp] theorem setCpu_agenda (x : Cpu) : (s.setCpu x).agenda = s.agenda := rfl
@[simp] theorem setCpu_reply (x : Cpu) : (s.setCpu x).reply = s.reply := rfl
@[simp] theorem setCpu_free (x : Cpu) : (s.setCpu x).free = s.free := rfl
@[simp] theorem setIntc_plat (x : Intc) : (s.setIntc x).plat = s.plat := rfl
@[simp] theorem setIntc_cpu (x : Intc) : (s.setIntc x).cpu = s.cpu := rfl
@[simp] theorem setIntc_intc (x : Intc) : (s.setIntc x).intc = x := rfl
@[simp] theorem setIntc_pdc (x : Intc) : (s.setIntc x).pdc = s.pdc := rfl
@[simp] theorem setIntc_idma0 (x : Intc) : (s.setIntc x).idma0 = s.idma0 := rfl
@[simp] theorem setIntc_idma1 (x : Intc) : (s.setIntc x).idma1 = s.idma1 := rfl
@[simp] theorem setIntc_bwm (x : Intc) : (s.setIntc x).bwm = s.bwm := rfl
@[simp] theorem setIntc_emc (x : Intc) : (s.setIntc x).emc = s.emc := rfl
@[simp] theorem setIntc_l1p (x : Intc) : (s.setIntc x).l1p = s.l1p := rfl
@[simp] theorem setIntc_l1d (x : Intc) : (s.setIntc x).l1d = s.l1d := rfl
@[simp] theorem setIntc_l2 (x : Intc) : (s.setIntc x).l2 = s.l2 := rfl
@[simp] theorem setIntc_mpL1P (x : Intc) : (s.setIntc x).mpL1P = s.mpL1P := rfl
@[simp] theorem setIntc_mpL1D (x : Intc) : (s.setIntc x).mpL1D = s.mpL1D := rfl
@[simp] theorem setIntc_mpL2 (x : Intc) : (s.setIntc x).mpL2 = s.mpL2 := rfl
@[simp] theorem setIntc_mem (x : Intc) : (s.setIntc x).mem = s.mem := rfl
@[simp] theorem setIntc_agenda (x : Intc) : (s.setIntc x).agenda = s.agenda := rfl
@[simp] theorem setIntc_reply (x : Intc) : (s.setIntc x).reply = s.reply := rfl
@[simp] theorem setIntc_free (x : Intc) : (s.setIntc x).free = s.free := rfl
@[simp] theorem setPdc_plat (x : Pdc) : (s.setPdc x).plat = s.plat := rfl
@[simp] theorem setPdc_cpu (x : Pdc) : (s.setPdc x).cpu = s.cpu := rfl
@[simp] theorem setPdc_intc (x : Pdc) : (s.setPdc x).intc = s.intc := rfl
@[simp] theorem setPdc_pdc (x : Pdc) : (s.setPdc x).pdc = x := rfl
@[simp] theorem setPdc_idma0 (x : Pdc) : (s.setPdc x).idma0 = s.idma0 := rfl
@[simp] theorem setPdc_idma1 (x : Pdc) : (s.setPdc x).idma1 = s.idma1 := rfl
@[simp] theorem setPdc_bwm (x : Pdc) : (s.setPdc x).bwm = s.bwm := rfl
@[simp] theorem setPdc_emc (x : Pdc) : (s.setPdc x).emc = s.emc := rfl
@[simp] theorem setPdc_l1p (x : Pdc) : (s.setPdc x).l1p = s.l1p := rfl
@[simp] theorem setPdc_l1d (x : Pdc) : (s.setPdc x).l1d = s.l1d := rfl
@[simp] theorem setPdc_l2 (x : Pdc) : (s.setPdc x).l2 = s.l2 := rfl
@[simp] theorem setPdc_mpL1P (x : Pdc) : (s.setPdc x).mpL1P = s.mpL1P := rfl
@[simp] theorem setPdc_mpL1D (x : Pdc) : (s.setPdc x).mpL1D = s.mpL1D := rfl
@[simp] theorem setPdc_mpL2 (x : Pdc) : (s.setPdc x).mpL2 = s.mpL2 := rfl
@[simp] theorem setPdc_mem (x : Pdc) : (s.setPdc x).mem = s.mem := rfl
@[simp] theorem setPdc_agenda (x : Pdc) : (s.setPdc x).agenda = s.agenda := rfl
@[simp] theorem setPdc_reply (x : Pdc) : (s.setPdc x).reply = s.reply := rfl
@[simp] theorem setPdc_free (x : Pdc) : (s.setPdc x).free = s.free := rfl
@[simp] theorem setIdma0_plat (x : Chan) : (s.setIdma0 x).plat = s.plat := rfl
@[simp] theorem setIdma0_cpu (x : Chan) : (s.setIdma0 x).cpu = s.cpu := rfl
@[simp] theorem setIdma0_intc (x : Chan) : (s.setIdma0 x).intc = s.intc := rfl
@[simp] theorem setIdma0_pdc (x : Chan) : (s.setIdma0 x).pdc = s.pdc := rfl
@[simp] theorem setIdma0_idma0 (x : Chan) : (s.setIdma0 x).idma0 = x := rfl
@[simp] theorem setIdma0_idma1 (x : Chan) : (s.setIdma0 x).idma1 = s.idma1 := rfl
@[simp] theorem setIdma0_bwm (x : Chan) : (s.setIdma0 x).bwm = s.bwm := rfl
@[simp] theorem setIdma0_emc (x : Chan) : (s.setIdma0 x).emc = s.emc := rfl
@[simp] theorem setIdma0_l1p (x : Chan) : (s.setIdma0 x).l1p = s.l1p := rfl
@[simp] theorem setIdma0_l1d (x : Chan) : (s.setIdma0 x).l1d = s.l1d := rfl
@[simp] theorem setIdma0_l2 (x : Chan) : (s.setIdma0 x).l2 = s.l2 := rfl
@[simp] theorem setIdma0_mpL1P (x : Chan) : (s.setIdma0 x).mpL1P = s.mpL1P := rfl
@[simp] theorem setIdma0_mpL1D (x : Chan) : (s.setIdma0 x).mpL1D = s.mpL1D := rfl
@[simp] theorem setIdma0_mpL2 (x : Chan) : (s.setIdma0 x).mpL2 = s.mpL2 := rfl
@[simp] theorem setIdma0_mem (x : Chan) : (s.setIdma0 x).mem = s.mem := rfl
@[simp] theorem setIdma0_agenda (x : Chan) : (s.setIdma0 x).agenda = s.agenda := rfl
@[simp] theorem setIdma0_reply (x : Chan) : (s.setIdma0 x).reply = s.reply := rfl
@[simp] theorem setIdma0_free (x : Chan) : (s.setIdma0 x).free = s.free := rfl
@[simp] theorem setIdma1_plat (x : Chan) : (s.setIdma1 x).plat = s.plat := rfl
@[simp] theorem setIdma1_cpu (x : Chan) : (s.setIdma1 x).cpu = s.cpu := rfl
@[simp] theorem setIdma1_intc (x : Chan) : (s.setIdma1 x).intc = s.intc := rfl
@[simp] theorem setIdma1_pdc (x : Chan) : (s.setIdma1 x).pdc = s.pdc := rfl
@[simp] theorem setIdma1_idma0 (x : Chan) : (s.setIdma1 x).idma0 = s.idma0 := rfl
@[simp] theorem setIdma1_idma1 (x : Chan) : (s.setIdma1 x).idma1 = x := rfl
@[simp] theorem setIdma1_bwm (x : Chan) : (s.setIdma1 x).bwm = s.bwm := rfl
@[simp] theorem setIdma1_emc (x : Chan) : (s.setIdma1 x).emc = s.emc := rfl
@[simp] theorem setIdma1_l1p (x : Chan) : (s.setIdma1 x).l1p = s.l1p := rfl
@[simp] theorem setIdma1_l1d (x : Chan) : (s.setIdma1 x).l1d = s.l1d := rfl
@[simp] theorem setIdma1_l2 (x : Chan) : (s.setIdma1 x).l2 = s.l2 := rfl
@[simp] theorem setIdma1_mpL1P (x : Chan) : (s.setIdma1 x).mpL1P = s.mpL1P := rfl
@[simp] theorem setIdma1_mpL1D (x : Chan) : (s.setIdma1 x).mpL1D = s.mpL1D := rfl
@[simp] theorem setIdma1_mpL2 (x : Chan) : (s.setIdma1 x).mpL2 = s.mpL2 := rfl
@[simp] theorem setIdma1_mem (x : Chan) : (s.setIdma1 x).mem = s.mem := rfl
@[simp] theorem setIdma1_agenda (x : Chan) : (s.setIdma1 x).agenda = s.agenda := rfl
@[simp] theorem setIdma1_reply (x : Chan) : (s.setIdma1 x).reply = s.reply := rfl
@[simp] theorem setIdma1_free (x : Chan) : (s.setIdma1 x).free = s.free := rfl
@[simp] theorem setBwm_plat (x : Bwm) : (s.setBwm x).plat = s.plat := rfl
@[simp] theorem setBwm_cpu (x : Bwm) : (s.setBwm x).cpu = s.cpu := rfl
@[simp] theorem setBwm_intc (x : Bwm) : (s.setBwm x).intc = s.intc := rfl
@[simp] theorem setBwm_pdc (x : Bwm) : (s.setBwm x).pdc = s.pdc := rfl
@[simp] theorem setBwm_idma0 (x : Bwm) : (s.setBwm x).idma0 = s.idma0 := rfl
@[simp] theorem setBwm_idma1 (x : Bwm) : (s.setBwm x).idma1 = s.idma1 := rfl
@[simp] theorem setBwm_bwm (x : Bwm) : (s.setBwm x).bwm = x := rfl
@[simp] theorem setBwm_emc (x : Bwm) : (s.setBwm x).emc = s.emc := rfl
@[simp] theorem setBwm_l1p (x : Bwm) : (s.setBwm x).l1p = s.l1p := rfl
@[simp] theorem setBwm_l1d (x : Bwm) : (s.setBwm x).l1d = s.l1d := rfl
@[simp] theorem setBwm_l2 (x : Bwm) : (s.setBwm x).l2 = s.l2 := rfl
@[simp] theorem setBwm_mpL1P (x : Bwm) : (s.setBwm x).mpL1P = s.mpL1P := rfl
@[simp] theorem setBwm_mpL1D (x : Bwm) : (s.setBwm x).mpL1D = s.mpL1D := rfl
@[simp] theorem setBwm_mpL2 (x : Bwm) : (s.setBwm x).mpL2 = s.mpL2 := rfl
@[simp] theorem setBwm_mem (x : Bwm) : (s.setBwm x).mem = s.mem := rfl
@[simp] theorem setBwm_agenda (x : Bwm) : (s.setBwm x).agenda = s.agenda := rfl
@[simp] theorem setBwm_reply (x : Bwm) : (s.setBwm x).reply = s.reply := rfl
@[simp] theorem setBwm_free (x : Bwm) : (s.setBwm x).free = s.free := rfl
@[simp] theorem setEmc_plat (x : Emc) : (s.setEmc x).plat = s.plat := rfl
@[simp] theorem setEmc_cpu (x : Emc) : (s.setEmc x).cpu = s.cpu := rfl
@[simp] theorem setEmc_intc (x : Emc) : (s.setEmc x).intc = s.intc := rfl
@[simp] theorem setEmc_pdc (x : Emc) : (s.setEmc x).pdc = s.pdc := rfl
@[simp] theorem setEmc_idma0 (x : Emc) : (s.setEmc x).idma0 = s.idma0 := rfl
@[simp] theorem setEmc_idma1 (x : Emc) : (s.setEmc x).idma1 = s.idma1 := rfl
@[simp] theorem setEmc_bwm (x : Emc) : (s.setEmc x).bwm = s.bwm := rfl
@[simp] theorem setEmc_emc (x : Emc) : (s.setEmc x).emc = x := rfl
@[simp] theorem setEmc_l1p (x : Emc) : (s.setEmc x).l1p = s.l1p := rfl
@[simp] theorem setEmc_l1d (x : Emc) : (s.setEmc x).l1d = s.l1d := rfl
@[simp] theorem setEmc_l2 (x : Emc) : (s.setEmc x).l2 = s.l2 := rfl
@[simp] theorem setEmc_mpL1P (x : Emc) : (s.setEmc x).mpL1P = s.mpL1P := rfl
@[simp] theorem setEmc_mpL1D (x : Emc) : (s.setEmc x).mpL1D = s.mpL1D := rfl
@[simp] theorem setEmc_mpL2 (x : Emc) : (s.setEmc x).mpL2 = s.mpL2 := rfl
@[simp] theorem setEmc_mem (x : Emc) : (s.setEmc x).mem = s.mem := rfl
@[simp] theorem setEmc_agenda (x : Emc) : (s.setEmc x).agenda = s.agenda := rfl
@[simp] theorem setEmc_reply (x : Emc) : (s.setEmc x).reply = s.reply := rfl
@[simp] theorem setEmc_free (x : Emc) : (s.setEmc x).free = s.free := rfl
@[simp] theorem setL1p_plat (x : L1p) : (s.setL1p x).plat = s.plat := rfl
@[simp] theorem setL1p_cpu (x : L1p) : (s.setL1p x).cpu = s.cpu := rfl
@[simp] theorem setL1p_intc (x : L1p) : (s.setL1p x).intc = s.intc := rfl
@[simp] theorem setL1p_pdc (x : L1p) : (s.setL1p x).pdc = s.pdc := rfl
@[simp] theorem setL1p_idma0 (x : L1p) : (s.setL1p x).idma0 = s.idma0 := rfl
@[simp] theorem setL1p_idma1 (x : L1p) : (s.setL1p x).idma1 = s.idma1 := rfl
@[simp] theorem setL1p_bwm (x : L1p) : (s.setL1p x).bwm = s.bwm := rfl
@[simp] theorem setL1p_emc (x : L1p) : (s.setL1p x).emc = s.emc := rfl
@[simp] theorem setL1p_l1p (x : L1p) : (s.setL1p x).l1p = x := rfl
@[simp] theorem setL1p_l1d (x : L1p) : (s.setL1p x).l1d = s.l1d := rfl
@[simp] theorem setL1p_l2 (x : L1p) : (s.setL1p x).l2 = s.l2 := rfl
@[simp] theorem setL1p_mpL1P (x : L1p) : (s.setL1p x).mpL1P = s.mpL1P := rfl
@[simp] theorem setL1p_mpL1D (x : L1p) : (s.setL1p x).mpL1D = s.mpL1D := rfl
@[simp] theorem setL1p_mpL2 (x : L1p) : (s.setL1p x).mpL2 = s.mpL2 := rfl
@[simp] theorem setL1p_mem (x : L1p) : (s.setL1p x).mem = s.mem := rfl
@[simp] theorem setL1p_agenda (x : L1p) : (s.setL1p x).agenda = s.agenda := rfl
@[simp] theorem setL1p_reply (x : L1p) : (s.setL1p x).reply = s.reply := rfl
@[simp] theorem setL1p_free (x : L1p) : (s.setL1p x).free = s.free := rfl
@[simp] theorem setL1d_plat (x : L1d) : (s.setL1d x).plat = s.plat := rfl
@[simp] theorem setL1d_cpu (x : L1d) : (s.setL1d x).cpu = s.cpu := rfl
@[simp] theorem setL1d_intc (x : L1d) : (s.setL1d x).intc = s.intc := rfl
@[simp] theorem setL1d_pdc (x : L1d) : (s.setL1d x).pdc = s.pdc := rfl
@[simp] theorem setL1d_idma0 (x : L1d) : (s.setL1d x).idma0 = s.idma0 := rfl
@[simp] theorem setL1d_idma1 (x : L1d) : (s.setL1d x).idma1 = s.idma1 := rfl
@[simp] theorem setL1d_bwm (x : L1d) : (s.setL1d x).bwm = s.bwm := rfl
@[simp] theorem setL1d_emc (x : L1d) : (s.setL1d x).emc = s.emc := rfl
@[simp] theorem setL1d_l1p (x : L1d) : (s.setL1d x).l1p = s.l1p := rfl
@[simp] theorem setL1d_l1d (x : L1d) : (s.setL1d x).l1d = x := rfl
@[simp] theorem setL1d_l2 (x : L1d) : (s.setL1d x).l2 = s.l2 := rfl
@[simp] theorem setL1d_mpL1P (x : L1d) : (s.setL1d x).mpL1P = s.mpL1P := rfl
@[simp] theorem setL1d_mpL1D (x : L1d) : (s.setL1d x).mpL1D = s.mpL1D := rfl
@[simp] theorem setL1d_mpL2 (x : L1d) : (s.setL1d x).mpL2 = s.mpL2 := rfl
@[simp] theorem setL1d_mem (x : L1d) : (s.setL1d x).mem = s.mem := rfl
@[simp] theorem setL1d_agenda (x : L1d) : (s.setL1d x).agenda = s.agenda := rfl
@[simp] theorem setL1d_reply (x : L1d) : (s.setL1d x).reply = s.reply := rfl
@[simp] theorem setL1d_free (x : L1d) : (s.setL1d x).free = s.free := rfl
@[simp] theorem setL2_plat (x : L2) : (s.setL2 x).plat = s.plat := rfl
@[simp] theorem setL2_cpu (x : L2) : (s.setL2 x).cpu = s.cpu := rfl
@[simp] theorem setL2_intc (x : L2) : (s.setL2 x).intc = s.intc := rfl
@[simp] theorem setL2_pdc (x : L2) : (s.setL2 x).pdc = s.pdc := rfl
@[simp] theorem setL2_idma0 (x : L2) : (s.setL2 x).idma0 = s.idma0 := rfl
@[simp] theorem setL2_idma1 (x : L2) : (s.setL2 x).idma1 = s.idma1 := rfl
@[simp] theorem setL2_bwm (x : L2) : (s.setL2 x).bwm = s.bwm := rfl
@[simp] theorem setL2_emc (x : L2) : (s.setL2 x).emc = s.emc := rfl
@[simp] theorem setL2_l1p (x : L2) : (s.setL2 x).l1p = s.l1p := rfl
@[simp] theorem setL2_l1d (x : L2) : (s.setL2 x).l1d = s.l1d := rfl
@[simp] theorem setL2_l2 (x : L2) : (s.setL2 x).l2 = x := rfl
@[simp] theorem setL2_mpL1P (x : L2) : (s.setL2 x).mpL1P = s.mpL1P := rfl
@[simp] theorem setL2_mpL1D (x : L2) : (s.setL2 x).mpL1D = s.mpL1D := rfl
@[simp] theorem setL2_mpL2 (x : L2) : (s.setL2 x).mpL2 = s.mpL2 := rfl
@[simp] theorem setL2_mem (x : L2) : (s.setL2 x).mem = s.mem := rfl
@[simp] theorem setL2_agenda (x : L2) : (s.setL2 x).agenda = s.agenda := rfl
@[simp] theorem setL2_reply (x : L2) : (s.setL2 x).reply = s.reply := rfl
@[simp] theorem setL2_free (x : L2) : (s.setL2 x).free = s.free := rfl
@[simp] theorem setMpL1P_plat (x : Mp) : (s.setMpL1P x).plat = s.plat := rfl
@[simp] theorem setMpL1P_cpu (x : Mp) : (s.setMpL1P x).cpu = s.cpu := rfl
@[simp] theorem setMpL1P_intc (x : Mp) : (s.setMpL1P x).intc = s.intc := rfl
@[simp] theorem setMpL1P_pdc (x : Mp) : (s.setMpL1P x).pdc = s.pdc := rfl
@[simp] theorem setMpL1P_idma0 (x : Mp) : (s.setMpL1P x).idma0 = s.idma0 := rfl
@[simp] theorem setMpL1P_idma1 (x : Mp) : (s.setMpL1P x).idma1 = s.idma1 := rfl
@[simp] theorem setMpL1P_bwm (x : Mp) : (s.setMpL1P x).bwm = s.bwm := rfl
@[simp] theorem setMpL1P_emc (x : Mp) : (s.setMpL1P x).emc = s.emc := rfl
@[simp] theorem setMpL1P_l1p (x : Mp) : (s.setMpL1P x).l1p = s.l1p := rfl
@[simp] theorem setMpL1P_l1d (x : Mp) : (s.setMpL1P x).l1d = s.l1d := rfl
@[simp] theorem setMpL1P_l2 (x : Mp) : (s.setMpL1P x).l2 = s.l2 := rfl
@[simp] theorem setMpL1P_mpL1P (x : Mp) : (s.setMpL1P x).mpL1P = x := rfl
@[simp] theorem setMpL1P_mpL1D (x : Mp) : (s.setMpL1P x).mpL1D = s.mpL1D := rfl
@[simp] theorem setMpL1P_mpL2 (x : Mp) : (s.setMpL1P x).mpL2 = s.mpL2 := rfl
@[simp] theorem setMpL1P_mem (x : Mp) : (s.setMpL1P x).mem = s.mem := rfl
@[simp] theorem setMpL1P_agenda (x : Mp) : (s.setMpL1P x).agenda = s.agenda := rfl
@[simp] theorem setMpL1P_reply (x : Mp) : (s.setMpL1P x).reply = s.reply := rfl
@[simp] theorem setMpL1P_free (x : Mp) : (s.setMpL1P x).free = s.free := rfl
@[simp] theorem setMpL1D_plat (x : Mp) : (s.setMpL1D x).plat = s.plat := rfl
@[simp] theorem setMpL1D_cpu (x : Mp) : (s.setMpL1D x).cpu = s.cpu := rfl
@[simp] theorem setMpL1D_intc (x : Mp) : (s.setMpL1D x).intc = s.intc := rfl
@[simp] theorem setMpL1D_pdc (x : Mp) : (s.setMpL1D x).pdc = s.pdc := rfl
@[simp] theorem setMpL1D_idma0 (x : Mp) : (s.setMpL1D x).idma0 = s.idma0 := rfl
@[simp] theorem setMpL1D_idma1 (x : Mp) : (s.setMpL1D x).idma1 = s.idma1 := rfl
@[simp] theorem setMpL1D_bwm (x : Mp) : (s.setMpL1D x).bwm = s.bwm := rfl
@[simp] theorem setMpL1D_emc (x : Mp) : (s.setMpL1D x).emc = s.emc := rfl
@[simp] theorem setMpL1D_l1p (x : Mp) : (s.setMpL1D x).l1p = s.l1p := rfl
@[simp] theorem setMpL1D_l1d (x : Mp) : (s.setMpL1D x).l1d = s.l1d := rfl
@[simp] theorem setMpL1D_l2 (x : Mp) : (s.setMpL1D x).l2 = s.l2 := rfl
@[simp] theorem setMpL1D_mpL1P (x : Mp) : (s.setMpL1D x).mpL1P = s.mpL1P := rfl
@[simp] theorem setMpL1D_mpL1D (x : Mp) : (s.setMpL1D x).mpL1D = x := rfl
@[simp] theorem setMpL1D_mpL2 (x : Mp) : (s.setMpL1D x).mpL2 = s.mpL2 := rfl
@[simp] theorem setMpL1D_mem (x : Mp) : (s.setMpL1D x).mem = s.mem := rfl
@[simp] theorem setMpL1D_agenda (x : Mp) : (s.setMpL1D x).agenda = s.agenda := rfl
@[simp] theorem setMpL1D_reply (x : Mp) : (s.setMpL1D x).reply = s.reply := rfl
@[simp] theorem setMpL1D_free (x : Mp) : (s.setMpL1D x).free = s.free := rfl
@[simp] theorem setMpL2_plat (x : Mp) : (s.setMpL2 x).plat = s.plat := rfl
@[simp] theorem setMpL2_cpu (x : Mp) : (s.setMpL2 x).cpu = s.cpu := rfl
@[simp] theorem setMpL2_intc (x : Mp) : (s.setMpL2 x).intc = s.intc := rfl
@[simp] theorem setMpL2_pdc (x : Mp) : (s.setMpL2 x).pdc = s.pdc := rfl
@[simp] theorem setMpL2_idma0 (x : Mp) : (s.setMpL2 x).idma0 = s.idma0 := rfl
@[simp] theorem setMpL2_idma1 (x : Mp) : (s.setMpL2 x).idma1 = s.idma1 := rfl
@[simp] theorem setMpL2_bwm (x : Mp) : (s.setMpL2 x).bwm = s.bwm := rfl
@[simp] theorem setMpL2_emc (x : Mp) : (s.setMpL2 x).emc = s.emc := rfl
@[simp] theorem setMpL2_l1p (x : Mp) : (s.setMpL2 x).l1p = s.l1p := rfl
@[simp] theorem setMpL2_l1d (x : Mp) : (s.setMpL2 x).l1d = s.l1d := rfl
@[simp] theorem setMpL2_l2 (x : Mp) : (s.setMpL2 x).l2 = s.l2 := rfl
@[simp] theorem setMpL2_mpL1P (x : Mp) : (s.setMpL2 x).mpL1P = s.mpL1P := rfl
@[simp] theorem setMpL2_mpL1D (x : Mp) : (s.setMpL2 x).mpL1D = s.mpL1D := rfl
@[simp] theorem setMpL2_mpL2 (x : Mp) : (s.setMpL2 x).mpL2 = x := rfl
@[simp] theorem setMpL2_mem (x : Mp) : (s.setMpL2 x).mem = s.mem := rfl
@[simp] theorem setMpL2_agenda (x : Mp) : (s.setMpL2 x).agenda = s.agenda := rfl
@[simp] theorem setMpL2_reply (x : Mp) : (s.setMpL2 x).reply = s.reply := rfl
@[simp] theorem setMpL2_free (x : Mp) : (s.setMpL2 x).free = s.free := rfl
@[simp] theorem setMem_plat (x : Memory) : (s.setMem x).plat = s.plat := rfl
@[simp] theorem setMem_cpu (x : Memory) : (s.setMem x).cpu = s.cpu := rfl
@[simp] theorem setMem_intc (x : Memory) : (s.setMem x).intc = s.intc := rfl
@[simp] theorem setMem_pdc (x : Memory) : (s.setMem x).pdc = s.pdc := rfl
@[simp] theorem setMem_idma0 (x : Memory) : (s.setMem x).idma0 = s.idma0 := rfl
@[simp] theorem setMem_idma1 (x : Memory) : (s.setMem x).idma1 = s.idma1 := rfl
@[simp] theorem setMem_bwm (x : Memory) : (s.setMem x).bwm = s.bwm := rfl
@[simp] theorem setMem_emc (x : Memory) : (s.setMem x).emc = s.emc := rfl
@[simp] theorem setMem_l1p (x : Memory) : (s.setMem x).l1p = s.l1p := rfl
@[simp] theorem setMem_l1d (x : Memory) : (s.setMem x).l1d = s.l1d := rfl
@[simp] theorem setMem_l2 (x : Memory) : (s.setMem x).l2 = s.l2 := rfl
@[simp] theorem setMem_mpL1P (x : Memory) : (s.setMem x).mpL1P = s.mpL1P := rfl
@[simp] theorem setMem_mpL1D (x : Memory) : (s.setMem x).mpL1D = s.mpL1D := rfl
@[simp] theorem setMem_mpL2 (x : Memory) : (s.setMem x).mpL2 = s.mpL2 := rfl
@[simp] theorem setMem_mem (x : Memory) : (s.setMem x).mem = x := rfl
@[simp] theorem setMem_agenda (x : Memory) : (s.setMem x).agenda = s.agenda := rfl
@[simp] theorem setMem_reply (x : Memory) : (s.setMem x).reply = s.reply := rfl
@[simp] theorem setMem_free (x : Memory) : (s.setMem x).free = s.free := rfl
@[simp] theorem setAgenda_plat (x : List Action) : (s.setAgenda x).plat = s.plat := rfl
@[simp] theorem setAgenda_cpu (x : List Action) : (s.setAgenda x).cpu = s.cpu := rfl
@[simp] theorem setAgenda_intc (x : List Action) : (s.setAgenda x).intc = s.intc := rfl
@[simp] theorem setAgenda_pdc (x : List Action) : (s.setAgenda x).pdc = s.pdc := rfl
@[simp] theorem setAgenda_idma0 (x : List Action) : (s.setAgenda x).idma0 = s.idma0 := rfl
@[simp] theorem setAgenda_idma1 (x : List Action) : (s.setAgenda x).idma1 = s.idma1 := rfl
@[simp] theorem setAgenda_bwm (x : List Action) : (s.setAgenda x).bwm = s.bwm := rfl
@[simp] theorem setAgenda_emc (x : List Action) : (s.setAgenda x).emc = s.emc := rfl
@[simp] theorem setAgenda_l1p (x : List Action) : (s.setAgenda x).l1p = s.l1p := rfl
@[simp] theorem setAgenda_l1d (x : List Action) : (s.setAgenda x).l1d = s.l1d := rfl
@[simp] theorem setAgenda_l2 (x : List Action) : (s.setAgenda x).l2 = s.l2 := rfl
@[simp] theorem setAgenda_mpL1P (x : List Action) : (s.setAgenda x).mpL1P = s.mpL1P := rfl
@[simp] theorem setAgenda_mpL1D (x : List Action) : (s.setAgenda x).mpL1D = s.mpL1D := rfl
@[simp] theorem setAgenda_mpL2 (x : List Action) : (s.setAgenda x).mpL2 = s.mpL2 := rfl
@[simp] theorem setAgenda_mem (x : List Action) : (s.setAgenda x).mem = s.mem := rfl
@[simp] theorem setAgenda_agenda (x : List Action) : (s.setAgenda x).agenda = x := rfl
@[simp] theorem setAgenda_reply (x : List Action) : (s.setAgenda x).reply = s.reply := rfl
@[simp] theorem setAgenda_free (x : List Action) : (s.setAgenda x).free = s.free := rfl
@[simp] theorem setReply_plat (x : Reply) : (s.setReply x).plat = s.plat := rfl
@[simp] theorem setReply_cpu (x : Reply) : (s.setReply x).cpu = s.cpu := rfl
@[simp] theorem setReply_intc (x : Reply) : (s.setReply x).intc = s.intc := rfl
@[simp] theorem setReply_pdc (x : Reply) : (s.setReply x).pdc = s.pdc := rfl
@[simp] theorem setReply_idma0 (x : Reply) : (s.setReply x).idma0 = s.idma0 := rfl
@[simp] theorem setReply_idma1 (x : Reply) : (s.setReply x).idma1 = s.idma1 := rfl
@[simp] theorem setReply_bwm (x : Reply) : (s.setReply x).bwm = s.bwm := rfl
@[simp] theorem setReply_emc (x : Reply) : (s.setReply x).emc = s.emc := rfl
@[simp] theorem setReply_l1p (x : Reply) : (s.setReply x).l1p = s.l1p := rfl
@[simp] theorem setReply_l1d (x : Reply) : (s.setReply x).l1d = s.l1d := rfl
@[simp] theorem setReply_l2 (x : Reply) : (s.setReply x).l2 = s.l2 := rfl
@[simp] theorem setReply_mpL1P (x : Reply) : (s.setReply x).mpL1P = s.mpL1P := rfl
@[simp] theorem setReply_mpL1D (x : Reply) : (s.setReply x).mpL1D = s.mpL1D := rfl
@[simp] theorem setReply_mpL2 (x : Reply) : (s.setReply x).mpL2 = s.mpL2 := rfl
@[simp] theorem setReply_mem (x : Reply) : (s.setReply x).mem = s.mem := rfl
@[simp] theorem setReply_agenda (x : Reply) : (s.setReply x).agenda = s.agenda := rfl
@[simp] theorem setReply_reply (x : Reply) : (s.setReply x).reply = x := rfl
@[simp] theorem setReply_free (x : Reply) : (s.setReply x).free = s.free := rfl
@[simp] theorem setFree_plat (x : Nat) : (s.setFree x).plat = s.plat := rfl
@[simp] theorem setFree_cpu (x : Nat) : (s.setFree x).cpu = s.cpu := rfl
@[simp] theorem setFree_intc (x : Nat) : (s.setFree x).intc = s.intc := rfl
@[simp] theorem setFree_pdc (x : Nat) : (s.setFree x).pdc = s.pdc := rfl
@[simp] theorem setFree_idma0 (x : Nat) : (s.setFree x).idma0 = s.idma0 := rfl
@[simp] theorem setFree_idma1 (x : Nat) : (s.setFree x).idma1 = s.idma1 := rfl
@[simp] theorem setFree_bwm (x : Nat) : (s.setFree x).bwm = s.bwm := rfl
@[simp] theorem setFree_emc (x : Nat) : (s.setFree x).emc = s.emc := rfl
@[simp] theorem setFree_l1p (x : Nat) : (s.setFree x).l1p = s.l1p := rfl
@[simp] theorem setFree_l1d (x : Nat) : (s.setFree x).l1d = s.l1d := rfl
@[simp] theorem setFree_l2 (x : Nat) : (s.setFree x).l2 = s.l2 := rfl
@[simp] theorem setFree_mpL1P (x : Nat) : (s.setFree x).mpL1P = s.mpL1P := rfl
@[simp] theorem setFree_mpL1D (x : Nat) : (s.setFree x).mpL1D = s.mpL1D := rfl
@[simp] theorem setFree_mpL2 (x : Nat) : (s.setFree x).mpL2 = s.mpL2 := rfl
@[simp] theorem setFree_mem (x : Nat) : (s.setFree x).mem = s.mem := rfl
@[simp] theorem setFree_agenda (x : Nat) : (s.setFree x).agenda = s.agenda := rfl
@[simp] theorem setFree_reply (x : Nat) : (s.setFree x).reply = s.reply := rfl
@[simp] theorem setFree_free (x : Nat) : (s.setFree x).free = x := rfl

end Sys2Proof.Machine.State
end

