-- ==== Sys2Proof/Laws/Quiet.lean ====
section
/-!
SUPPORT. What the shared operations leave alone: the platform, the state only supervisor code may write, and the machine's
invariant. `Quiet s t` says so of one move; each operation has one lemma, and longer operations are chains of them.
-/
namespace Sys2Proof.Machine

/-- A move that keeps the platform, the supervisor-only state, the CPU's privilege, the agenda and the invariant. -/
structure Quiet (s t : State) : Prop where
  plat   : t.plat = s.plat
  sup    : t.supervised = s.supervised
  priv   : t.cpu.priv = s.cpu.priv
  agenda : t.agenda = s.agenda
  inv    : s.Inv → t.Inv

theorem Quiet.refl (s : State) : Quiet s s := ⟨rfl, rfl, rfl, rfl, id⟩

theorem Quiet.trans {s t u : State} (h : Quiet s t) (k : Quiet t u) : Quiet s u :=
  ⟨k.plat.trans h.plat, k.sup.trans h.sup, k.priv.trans h.priv, k.agenda.trans h.agenda, fun i => k.inv (h.inv i)⟩

theorem Quiet.ite {s t u : State} {c : Prop} [Decidable c] (h : Quiet s t) (k : Quiet s u) :
    Quiet s (if c then t else u) := by split_ifs <;> assumption

/-! ### One line in a frame -/

theorem framesDistinct_dropLine {ls : List Line} (a b : Nat) (h : framesDistinct ls = true) :
    framesDistinct (dropLine ls a b) = true := by
  unfold framesDistinct at h ⊢
  rw [decide_eq_true_eq] at h ⊢
  exact h.sublist (List.filter_sublist.map _)

theorem framesDistinct_putLine {ls : List Line} (l : Line) (h : framesDistinct ls = true) :
    framesDistinct (putLine ls l) = true := by
  have k := framesDistinct_dropLine l.set l.way h
  unfold framesDistinct at k ⊢
  rw [decide_eq_true_eq] at k ⊢
  refine List.nodup_cons.2 ⟨fun hm => ?_, k⟩
  obtain ⟨m, hm, e⟩ := List.mem_map.1 hm
  simp only [dropLine, List.mem_filter] at hm
  injection e with e1 e2
  simp [e1, e2] at hm

theorem State.Inv.framesL1p {s : State} (h : s.Inv) (x : L1p) (hf : framesDistinct x.lines = true) :
    ∀ y, framesDistinct ((s.setL1p x).linesOf y) = true
  | .l1p => hf
  | .l1d => h.frames .l1d
  | .l2 => h.frames .l2

theorem State.Inv.framesL1d {s : State} (h : s.Inv) (x : L1d) (hf : framesDistinct x.lines = true) :
    ∀ y, framesDistinct ((s.setL1d x).linesOf y) = true
  | .l1p => h.frames .l1p
  | .l1d => hf
  | .l2 => h.frames .l2

theorem State.Inv.framesL2 {s : State} (h : s.Inv) (x : L2) (hf : framesDistinct x.lines = true) :
    ∀ y, framesDistinct ((s.setL2 x).linesOf y) = true
  | .l1p => h.frames .l1p
  | .l1d => h.frames .l1d
  | .l2 => hf

/-! ### Updates of one field -/

theorem quiet_setCpu (s : State) (x : Cpu) (h : x.priv = s.cpu.priv) : Quiet s (s.setCpu x) :=
  ⟨rfl, rfl, h, rfl, fun h => ⟨h.1, h.2, h.3, h.4, h.5, h.6, h.7, h.8, h.9, h.10⟩⟩
theorem quiet_setReply (s : State) (x : Reply) : Quiet s (s.setReply x) := 
  ⟨rfl, rfl, rfl, rfl, fun h => ⟨h.1, h.2, h.3, h.4, h.5, h.6, h.7, h.8, h.9, h.10⟩⟩
theorem quiet_setFree (s : State) (x : Nat) : Quiet s (s.setFree x) := 
  ⟨rfl, rfl, rfl, rfl, fun h => ⟨h.1, h.2, h.3, h.4, h.5, h.6, h.7, h.8, h.9, h.10⟩⟩
theorem quiet_setEmc (s : State) (x : Emc) : Quiet s (s.setEmc x) := 
  ⟨rfl, rfl, rfl, rfl, fun h => ⟨h.1, h.2, h.3, h.4, h.5, h.6, h.7, h.8, h.9, h.10⟩⟩
theorem quiet_spend (s : State) : Quiet s s.spend := quiet_setFree s _

theorem quiet_setPdc (s : State) (x : Pdc) (h : x.megpd = s.pdc.megpd) : Quiet s (s.setPdc x) :=
  ⟨rfl, by simp [State.supervised, h], rfl, rfl, fun h => ⟨h.1, h.2, h.3, h.4, h.5, h.6, h.7, h.8, h.9, h.10⟩⟩

theorem quiet_setMem (s : State) (m : Memory) (h : s.mem.wf = true → m.wf = true) : Quiet s (s.setMem m) :=
  ⟨rfl, rfl, rfl, rfl, fun k => ⟨h k.1, k.2, k.3, k.4, k.5, k.6, k.7, k.8, k.9, k.10⟩⟩

theorem quiet_setL1p (s : State) (x : L1p) (hm : x.mode = s.l1p.mode) (hp : x.mppa = s.l1p.mppa) (ho : x.op = s.l1p.op)
    (hf : s.Inv → framesDistinct x.lines = true) : Quiet s (s.setL1p x) :=
  ⟨rfl, by simp [State.supervised, hm, hp], rfl, rfl,
    fun h => ⟨h.1, by have := h.2; simpa [State.mppaReserved, hp] using this, h.3, h.4, h.5, h.6, h.7, h.8,
      by have := h.9; simpa [State.oneOp, ho] using this, h.framesL1p x (hf h)⟩⟩

theorem quiet_setL1d (s : State) (x : L1d) (hm : x.mode = s.l1d.mode) (hp : x.mppa = s.l1d.mppa) (ho : x.op = s.l1d.op)
    (hw : s.Inv → x.wbuf.length ≤ 4) (hf : s.Inv → framesDistinct x.lines = true) : Quiet s (s.setL1d x) :=
  ⟨rfl, by simp [State.supervised, hm, hp], rfl, rfl,
    fun h => ⟨h.1, by have := h.2; simpa [State.mppaReserved, hp] using this, h.3, h.4, h.5, hw h, h.7, h.8,
      by have := h.9; simpa [State.oneOp, ho] using this, h.framesL1d x (hf h)⟩⟩

/-- A move followed by an update of L1D whose buffer length the first state bounds. -/
theorem Quiet.thenL1d {s t : State} (h : Quiet s t) (x : L1d) (hm : x.mode = t.l1d.mode) (hp : x.mppa = t.l1d.mppa)
    (ho : x.op = t.l1d.op) (hw : s.Inv → x.wbuf.length ≤ 4) (hf : t.Inv → framesDistinct x.lines = true) :
    Quiet s (t.setL1d x) :=
  ⟨h.plat, Eq.trans (by simp [State.supervised, hm, hp]) h.sup, h.priv, h.agenda, fun i =>
    have k := h.inv i
    ⟨k.1, by have := k.2; simpa [State.mppaReserved, hp] using this, k.3, k.4, k.5, hw i, k.7, k.8,
      by have := k.9; simpa [State.oneOp, ho] using this, k.framesL1d x (hf k)⟩⟩

theorem quiet_setL2 (s : State) (x : L2) (hm : x.mode = s.l2.mode) (hc : x.cc = s.l2.cc) (hr : x.mar = s.l2.mar)
    (hp : x.mppa = s.l2.mppa) (ho : x.op = s.l2.op) (hf : s.Inv → framesDistinct x.lines = true) : Quiet s (s.setL2 x) :=
  ⟨rfl, by simp [State.supervised, hm, hc, hr, hp], rfl, rfl,
    fun h => ⟨h.1, by have := h.2; simpa [State.mppaReserved, hp] using this, h.3, h.4, h.5, h.6, h.7, h.8,
      by have := h.9; simpa [State.oneOp, ho] using this, h.framesL2 x (hf h)⟩⟩

theorem quiet_setMp (s : State) (x : Block) (m : Mp) (h : m.lock = (s.mp x).lock) : Quiet s (s.setMp x m) := by
  cases x <;> exact ⟨rfl, by simp_all [State.supervised, State.setMp, State.mp], rfl, rfl,
    fun h => ⟨h.1, h.2, h.3, h.4, h.5, h.6, h.7, h.8, h.9, h.10⟩⟩

theorem State.combinedReserved_iff (s : State) : s.combinedReserved = true ↔
    s.intc.evtFlag[0] &&& combinedBits = 0#32 ∧ s.intc.evtMask[0] &&& combinedBits = combinedBits ∧
      s.intc.expMask[0] &&& combinedBits = combinedBits := by
  simp [State.combinedReserved, and_assoc]

theorem Intc.withFlag_eq (c : Intc) (e : Nat) :
    (c.withFlag e).evtMask = c.evtMask ∧ (c.withFlag e).expMask = c.expMask ∧ (c.withFlag e).intMux = c.intMux ∧
      (c.withFlag e).intXStat = c.intXStat ∧ (c.withFlag e).intDMask = c.intDMask ∧ (c.withFlag e).aegMux = c.aegMux := by
  unfold Intc.withFlag; split_ifs <;> exact ⟨rfl, rfl, rfl, rfl, rfl, rfl⟩

/-- An event above 3 leaves the flags of events 0 to 3 alone. -/
theorem Intc.withFlag_combined (c : Intc) (e : Nat) (he : 4 ≤ e) :
    (c.withFlag e).evtFlag[0] &&& combinedBits = c.evtFlag[0] &&& combinedBits := by
  unfold Intc.withFlag
  split_ifs with h4
  · by_cases h0 : e / 32 = 0
    · have hb : bitAt (e % 32) true &&& combinedBits = 0#32 := by
        have : e < 32 := by omega
        interval_cases e <;> decide
      simp only [h0, Vector.getElem_set_self]
      rw [BitVec.and_comm, BitVec.and_or_distrib_left, BitVec.and_comm _ (bitAt _ _), hb, BitVec.or_zero, BitVec.and_comm]
    · simp only [Vector.getElem_set_ne _ _ h0]
  · rfl

/-- An event leaves the masks, the selectors and `INTXSTAT` alone, and cannot set the flags of events 0 to 3. -/
theorem quiet_raise (s : State) (e : Nat) (he : 4 ≤ e) : Quiet s (s.raise e) := by
  obtain ⟨h1, h2, h3, h4, h5, h6⟩ := s.intc.withFlag_eq e
  refine ⟨rfl, ?_, rfl, rfl, fun h => ⟨h.1, h.2, ?_, h.4, h.5, h.6, h.7, h.8, h.9, h.10⟩⟩
  · simp [State.supervised, State.raise, h1, h2, h3, h4, h5, h6]
  · have hc := (State.combinedReserved_iff s).1 h.3
    rw [State.combinedReserved_iff]
    simp only [State.raise, State.setIntc_intc, h1, h2]
    exact ⟨(s.intc.withFlag_combined e he).trans hc.1, hc.2⟩

/-! ### Shared operations -/

theorem faultEvent_ge (x : Block) (o : Origin) : 4 ≤ faultEvent x o := by cases x <;> cases o <;> decide

theorem quiet_recordFault (s : State) (x : Block) (o : Origin) (a : Nat) (p : Priv) (k : Kind) (id : Nat) :
    Quiet s (s.recordFault x o a p k id) := by
  unfold State.recordFault
  refine Quiet.ite (Quiet.trans ?_ (quiet_raise _ _ (faultEvent_ge x o))) (Quiet.refl s)
  exact quiet_setMp _ _ _ rfl

theorem quiet_registerPermissionFault (s : State) (o : Owner) (a : Nat) : Quiet s (s.registerPermissionFault o a) := by
  unfold State.registerPermissionFault
  split
  · exact quiet_recordFault ..
  · split
    · exact Quiet.refl s
    · exact quiet_raise _ _ (by decide)
    · exact quiet_raise _ _ (by decide)

theorem quiet_lockFault (s : State) (x : Block) (a : Nat) : Quiet s (s.lockFault x a) := quiet_recordFault ..

theorem quiet_putMasked (s : State) (a : Nat) (bs : List (Option Byte)) : Quiet s (s.putMasked a bs) :=
  quiet_setMem s _ fun h => Memory.writeMasked_wf h a _

theorem quiet_putBytes (s : State) (a : Nat) (bs : List Byte) : Quiet s (s.putBytes a bs) := quiet_putMasked s a _

theorem quiet_dropFills (s : State) (hit : Nat → Bool) : Quiet s (s.dropFills hit) := quiet_setEmc s _

theorem quiet_forget (s : State) (r : Span) : Quiet s (s.forget r) := by
  unfold State.forget
  exact Quiet.ite (Quiet.refl s) ((quiet_setMem s _ fun h => Memory.forget_wf h _).trans (quiet_spend _))

theorem quiet_busError (s : State) (op : BusOp) (x : BitVec 4) (t : BitVec 3) : Quiet s (s.busError op x t) := by
  unfold State.busError
  exact Quiet.ite ((quiet_setEmc s _).trans (quiet_raise _ _ (by decide))) (Quiet.refl s)

theorem quiet_transact (s : State) (op : BusOp) (a n : Nat) (p : Priv) (id : Nat) : Quiet s (s.transact op a n p id).1 := by
  unfold State.transact
  split
  · exact quiet_setEmc s _
  · exact quiet_setEmc s _
  · exact (quiet_setEmc s _).trans (quiet_busError ..)

theorem quiet_busRead (s : State) (op : BusOp) (a n : Nat) (p : Priv) (id : Nat) : Quiet s (s.busRead op a n p id).1 := by
  have h := (quiet_transact s op a n p id).trans (quiet_dropFills _ fun x => a ≤ x && x < a + n)
  unfold State.busRead
  by_cases hc : (s.transact op a n p id).2
  · simpa [hc] using h
  · simpa [hc] using h.trans (quiet_spend _)

theorem quiet_extPut (s : State) (a : Nat) (bs : List (Option Byte)) : Quiet s (s.extPut a bs) :=
  (quiet_dropFills s _).trans (quiet_setMem _ _ fun h => Memory.writeMasked_wf h a bs)

theorem quiet_busWrite (s : State) (op : BusOp) (f n a : Nat) (bs : List (Option Byte)) (p : Priv) (id : Nat) :
    Quiet s (s.busWrite op f n a bs p id) := by
  unfold State.busWrite
  refine (quiet_transact s op f n p id).trans (Quiet.ite (quiet_extPut ..) ?_)
  exact Quiet.ite ((quiet_spend _).trans (quiet_extPut ..)) (quiet_spend _)

theorem quiet_endDrain (s : State) : Quiet s s.endDrain := quiet_setEmc s _

theorem quiet_dropServed (s : State) (k : AheadKind) : Quiet s (s.dropServed k) := by
  cases k <;> first | exact Quiet.refl s | exact quiet_setCpu s _ rfl

theorem quiet_extWriteLine (s : State) (v : Victim) : Quiet s (s.extWriteLine v) := quiet_busWrite ..

theorem quiet_finishOut (s : State) : Quiet s s.finishOut := by
  unfold State.finishOut
  split
  · exact Quiet.refl s
  · exact (quiet_setL2 s { s.l2 with out := none } rfl rfl rfl rfl rfl fun i => i.frames .l2).trans (quiet_extWriteLine ..)

theorem quiet_extRead (s : State) (k : AheadKind) (a n : Nat) (p : Priv) : Quiet s (s.extRead k a n p).1 := by
  unfold State.extRead
  refine (quiet_finishOut s).trans ?_
  dsimp only
  split
  · exact (quiet_busRead ..).trans (quiet_dropServed ..)
  · exact quiet_busRead ..
  · exact quiet_busRead ..

/-! ### L2 -/

theorem L2.touch_eq (c : L2) (set way : Nat) :
    (c.touch set way).mode = c.mode ∧ (c.touch set way).cc = c.cc ∧ (c.touch set way).mar = c.mar ∧
      (c.touch set way).mppa = c.mppa ∧ (c.touch set way).op = c.op := by
  unfold L2.touch; split_ifs <;> exact ⟨rfl, rfl, rfl, rfl, rfl⟩

@[simp] theorem L2.touch_lines (c : L2) (set way : Nat) : (c.touch set way).lines = c.lines := by
  unfold L2.touch; split_ifs <;> rfl

theorem quiet_touch2 (s : State) (set way : Nat) : Quiet s (s.setL2 (s.l2.touch set way)) :=
  have h := s.l2.touch_eq set way
  quiet_setL2 s _ h.1 h.2.1 h.2.2.1 h.2.2.2.1 h.2.2.2.2 fun i => by rw [L2.touch_lines]; exact i.frames .l2

theorem quiet_lines2 (s : State) (ls : List Line) (h : s.Inv → framesDistinct ls = true) :
    Quiet s (s.setL2 { s.l2 with lines := ls }) := quiet_setL2 s _ rfl rfl rfl rfl rfl h

theorem quiet_wakePages (s : State) (a : Nat) : Quiet s (s.wakePages a) :=
  quiet_setL2 s _ rfl rfl rfl rfl rfl fun i => i.frames .l2

theorem quiet_wakeForCpu (s : State) (a : Nat) : Quiet s (s.wakeForCpu a) := Quiet.ite (quiet_wakePages s a) (Quiet.refl s)

/-- A CPU access of L2 RAM changes the sleep bits only before it goes on, and clears those of the pages of its address. -/
theorem wakeForCpu_eq (s : State) (a : Nat) : ∃ w, s.wakeForCpu a = s.setL2 { s.l2 with sleep := w } ∧
    ∀ q : Fin 4, w[q] = (s.l2.sleep[q] && !(s.inL2Ram a && (s.plat.l2.pdPages[q]).has a)) := by
  unfold State.wakeForCpu
  split
  · next h => exact ⟨_, rfl, fun q => by rw [h]; exact Vector.getElem_ofFn ..⟩
  · next h => exact ⟨s.l2.sleep, rfl, fun q => by simp [h]⟩

theorem quiet_l2Evict (s : State) (a : Nat) : Quiet s (s.l2Evict a) := by
  unfold State.l2Evict
  split
  · exact ((quiet_finishOut s).trans (quiet_dropFills _ _)).trans
      (quiet_setL2 _ _ rfl rfl rfl rfl rfl fun i => framesDistinct_dropLine _ _ (i.frames .l2))
  · exact Quiet.refl s

theorem quiet_l2Allocate (s : State) (k : AheadKind) (a : Nat) (p : Priv) : Quiet s (s.l2Allocate k a p).1 := by
  unfold State.l2Allocate
  dsimp only
  have h := L2.touch_eq
  exact ((quiet_l2Evict s a).trans (quiet_extRead ..)).trans
    (quiet_setL2 _ _ (h _ _ _).1 (h _ _ _).2.1 (h _ _ _).2.2.1 (h _ _ _).2.2.2.1 (h _ _ _).2.2.2.2 fun i => by
      rw [L2.touch_lines]; exact framesDistinct_putLine _ (i.frames .l2))

theorem quiet_l2Read (s : State) (k : AheadKind) (a n : Nat) (p : Priv) : Quiet s (s.l2Read k a n p).1 := by
  unfold State.l2Read
  by_cases h1 : s.inL2Ram a
  · rw [if_pos h1]; exact quiet_wakePages s a
  rw [if_neg h1]
  split
  · exact quiet_touch2 ..
  · by_cases h2 : s.mayAllocateL2 a
    · rw [if_pos h2]; exact quiet_l2Allocate s k a p
    · rw [if_neg h2]; exact quiet_extRead ..

theorem quiet_l2Probe (s : State) (a n : Nat) (p : Priv) : Quiet s (s.l2Probe a n p) := by
  unfold State.l2Probe
  exact Quiet.ite (quiet_wakePages s a) (Quiet.ite (Quiet.refl s) (Quiet.ite (quiet_extRead ..) (quiet_extRead ..)))

theorem quiet_l2Merge (s : State) (l : Line) (o : Nat) (bs : List (Option Byte)) : Quiet s (s.l2Merge l o bs) :=
  quiet_lines2 _ _ fun i => framesDistinct_putLine _ (i.frames .l2)

theorem quiet_l2Write (s : State) (e : WbEntry) : Quiet s (s.l2Write e) := by
  have hd : Quiet s (s.recordFault .l2 .local e.first e.priv .write s.plat.cpuId) := quiet_recordFault ..
  unfold State.l2Write
  refine Quiet.ite ((quiet_wakePages s _).trans (Quiet.ite (quiet_putMasked ..) (quiet_recordFault ..))) ?_
  split
  · exact Quiet.refl s
  · exact quiet_busWrite ..
  · split
    · exact Quiet.ite ((quiet_l2Merge ..).trans (quiet_touch2 ..)) hd
    · exact Quiet.ite (Quiet.ite ((quiet_l2Allocate ..).trans (quiet_l2Merge ..)) hd)
        ((quiet_finishOut s).trans (quiet_busWrite ..))

theorem quiet_l2Take (s : State) (v : Victim) (ext : State → State) (h : ∀ t, Quiet t (ext t)) : Quiet s (s.l2Take v ext) := by
  unfold State.l2Take
  refine Quiet.ite ((quiet_wakePages s _).trans (quiet_putMasked ..)) (Quiet.ite (Quiet.refl s) ?_)
  split
  · exact quiet_l2Merge ..
  · exact (quiet_finishOut s).trans (h _)

theorem quiet_l2WriteVictim (s : State) (v : Victim) : Quiet s (s.l2WriteVictim v) :=
  quiet_l2Take s v _ fun t => quiet_extWriteLine t v

theorem quiet_outWord (s : State) (i : Nat) : Quiet s (s.outWord i) := by
  unfold State.outWord
  split
  · exact Quiet.refl s
  · next v _ => exact (quiet_setL2 s { s.l2 with out := some (v.without i) } rfl rfl rfl rfl rfl fun k => k.frames .l2).trans (quiet_extPut ..)

/-! ### L1D -/

theorem L1d.touch_eq (c : L1d) (set way : Nat) :
    (c.touch set way).mode = c.mode ∧ (c.touch set way).mppa = c.mppa ∧ (c.touch set way).op = c.op ∧
      (c.touch set way).wbuf = c.wbuf := by
  unfold L1d.touch; split_ifs <;> exact ⟨rfl, rfl, rfl, rfl⟩

@[simp] theorem L1d.touch_lines (c : L1d) (set way : Nat) : (c.touch set way).lines = c.lines := by
  unfold L1d.touch; split_ifs <;> rfl

theorem quiet_touch1 (s : State) (set way : Nat) : Quiet s (s.setL1d (s.l1d.touch set way)) :=
  have h := s.l1d.touch_eq set way
  quiet_setL1d s _ h.1 h.2.1 h.2.2.1 (fun i => h.2.2.2 ▸ i.wbuf) fun i => by rw [L1d.touch_lines]; exact i.frames .l1d

theorem quiet_lines1 (s : State) (ls : List Line) (h : s.Inv → framesDistinct ls = true) :
    Quiet s (s.setL1d { s.l1d with lines := ls }) := quiet_setL1d s _ rfl rfl rfl (fun i => i.wbuf) h

theorem quiet_drainVictim (s : State) : Quiet s s.drainVictim := by
  unfold State.drainVictim
  split
  · exact Quiet.refl s
  · exact Quiet.trans (quiet_setL1d s { s.l1d with victim := none } rfl rfl rfl (fun i => i.wbuf) fun i => i.frames .l1d)
      (quiet_l2WriteVictim _ _)

theorem quiet_victimWord (s : State) (i : Nat) : Quiet s (s.victimWord i) := by
  unfold State.victimWord
  split
  · exact Quiet.refl s
  · next v _ =>
    exact (quiet_setL1d s { s.l1d with victim := some (v.without i) } rfl rfl rfl (fun i => i.wbuf) fun i => i.frames .l1d).trans
      (quiet_l2Take _ _ _ fun t => quiet_extPut t ..)

theorem quiet_drainOne (s : State) : Quiet s s.drainOne := by
  unfold State.drainOne
  refine (quiet_drainVictim s).trans ?_
  dsimp only
  split
  · exact Quiet.refl _
  · next e t h =>
    refine (Quiet.trans ?_ (quiet_l2Write _ _)).trans (quiet_endDrain _)
    refine quiet_setL1d _ _ rfl rfl rfl (fun i => ?_) fun i => i.frames .l1d
    have := i.wbuf
    rw [h] at this
    exact Nat.le_of_succ_le this

theorem quiet_drain (s : State) (n : Nat) : Quiet s (s.drain n) := by
  induction n generalizing s with
  | zero => exact Quiet.refl s
  | succ n ih => exact (quiet_drainOne s).trans (ih _)

theorem quiet_drainAll (s : State) : Quiet s s.drainAll := (quiet_drainVictim s).trans (quiet_drain _ _)

theorem quiet_deniedRead (s : State) (x : Block) (o : Origin) (a n : Nat) (p : Priv) (id : Nat) :
    Quiet s (s.deniedRead x o a n p id).1 := (quiet_recordFault s x o a p .read id).trans (quiet_spend _)

/-! ### The L2 side leaves the L1D controller alone -/

@[simp] theorem recordFault_l1d (s : State) (x : Block) (o : Origin) (a : Nat) (p : Priv) (k : Kind) (id : Nat) :
    (s.recordFault x o a p k id).l1d = s.l1d := by
  unfold State.recordFault State.raise State.setMp; split_ifs <;> cases x <;> rfl

@[simp] theorem putMasked_l1d (s : State) (a : Nat) (bs : List (Option Byte)) : (s.putMasked a bs).l1d = s.l1d := rfl

@[simp] theorem putBytes_l1d (s : State) (a : Nat) (bs : List Byte) : (s.putBytes a bs).l1d = s.l1d := rfl

@[simp] theorem dropFills_l1d (s : State) (hit : Nat → Bool) : (s.dropFills hit).l1d = s.l1d := rfl
@[simp] theorem dropFills_l1p (s : State) (hit : Nat → Bool) : (s.dropFills hit).l1p = s.l1p := rfl
@[simp] theorem dropFills_l2 (s : State) (hit : Nat → Bool) : (s.dropFills hit).l2 = s.l2 := rfl
@[simp] theorem dropFills_mem (s : State) (hit : Nat → Bool) : (s.dropFills hit).mem = s.mem := rfl
@[simp] theorem dropFills_cpu (s : State) (hit : Nat → Bool) : (s.dropFills hit).cpu = s.cpu := rfl

@[simp] theorem raise_l1d (s : State) (e : Nat) : (s.raise e).l1d = s.l1d := rfl

@[simp] theorem busError_l1d (s : State) (op : BusOp) (x : BitVec 4) (t : BitVec 3) : (s.busError op x t).l1d = s.l1d := by
  unfold State.busError
  split_ifs
  · rw [raise_l1d, State.setEmc_l1d]
  · rfl

@[simp] theorem transact_l1d (s : State) (op : BusOp) (a n : Nat) (p : Priv) (id : Nat) :
    (s.transact op a n p id).1.l1d = s.l1d := by
  unfold State.transact
  split
  · rfl
  · rfl
  · dsimp only; rw [busError_l1d, State.setEmc_l1d]

@[simp] theorem busRead_l1d (s : State) (op : BusOp) (a n : Nat) (p : Priv) (id : Nat) :
    (s.busRead op a n p id).1.l1d = s.l1d := by
  unfold State.busRead
  by_cases hc : (s.transact op a n p id).2 <;> simp [hc, State.spend]

@[simp] theorem extPut_l1d (s : State) (a : Nat) (bs : List (Option Byte)) : (s.extPut a bs).l1d = s.l1d := rfl

@[simp] theorem busWrite_l1d (s : State) (op : BusOp) (f n a : Nat) (bs : List (Option Byte)) (p : Priv) (id : Nat) :
    (s.busWrite op f n a bs p id).l1d = s.l1d := by
  unfold State.busWrite
  dsimp only
  split_ifs <;> simp [State.spend]

@[simp] theorem extWriteLine_l1d (s : State) (v : Victim) : (s.extWriteLine v).l1d = s.l1d := busWrite_l1d ..

@[simp] theorem endDrain_l1d (s : State) : s.endDrain.l1d = s.l1d := rfl

@[simp] theorem finishOut_l1d (s : State) : s.finishOut.l1d = s.l1d := by
  unfold State.finishOut
  split <;> simp

@[simp] theorem l2Evict_l1d (s : State) (a : Nat) : (s.l2Evict a).l1d = s.l1d := by
  unfold State.l2Evict; dsimp only; repeat' split
  all_goals simp

@[simp] theorem outWord_l1d (s : State) (i : Nat) : (s.outWord i).l1d = s.l1d := by
  unfold State.outWord; split <;> simp

@[simp] theorem dropServed_l1d (s : State) (k : AheadKind) : (s.dropServed k).l1d = s.l1d := by cases k <;> rfl

@[simp] theorem extRead_l1d (s : State) (k : AheadKind) (a n : Nat) (p : Priv) : (s.extRead k a n p).1.l1d = s.l1d := by
  unfold State.extRead; dsimp only; split <;> simp

@[simp] theorem l2Allocate_l1d (s : State) (k : AheadKind) (a : Nat) (p : Priv) : (s.l2Allocate k a p).1.l1d = s.l1d := by
  simp [State.l2Allocate]

@[simp] theorem l2Merge_l1d (s : State) (l : Line) (o : Nat) (bs : List (Option Byte)) : (s.l2Merge l o bs).l1d = s.l1d := rfl

@[simp] theorem wakePages_l1d (s : State) (a : Nat) : (s.wakePages a).l1d = s.l1d := rfl

@[simp] theorem l2Read_l1d (s : State) (k : AheadKind) (a n : Nat) (p : Priv) : (s.l2Read k a n p).1.l1d = s.l1d := by
  unfold State.l2Read; repeat' split
  all_goals simp

@[simp] theorem l2Write_l1d (s : State) (e : WbEntry) : (s.l2Write e).l1d = s.l1d := by
  unfold State.l2Write; dsimp only; repeat' split
  all_goals simp

@[simp] theorem l2Take_l1d (s : State) (v : Victim) (ext : State → State) (h : ∀ t, (ext t).l1d = t.l1d) :
    (s.l2Take v ext).l1d = s.l1d := by
  unfold State.l2Take; repeat' split
  all_goals simp [h]

@[simp] theorem l2WriteVictim_l1d (s : State) (v : Victim) : (s.l2WriteVictim v).l1d = s.l1d :=
  l2Take_l1d s v _ fun t => extWriteLine_l1d t v

/-- After the victim has gone only the victim slot has changed in L1D. -/
theorem drainVictim_l1d (s : State) : s.drainVictim.l1d = { s.l1d with victim := none } := by
  unfold State.drainVictim
  split
  · next h => rw [← h]
  · simp

/-- A drain takes the oldest entry. -/
theorem drainOne_wbuf (s : State) : s.drainOne.l1d.wbuf = s.l1d.wbuf.tail := by
  have h := congrArg L1d.wbuf (drainVictim_l1d s)
  unfold State.drainOne
  dsimp only at h ⊢
  split
  · next he => rw [he] at h ⊢; simp [← h]
  · next he => rw [he] at h; simp [← h]

/-! ### The L2 side leaves the CPU alone, and what is left when the buffers are empty -/

@[simp] theorem recordFault_cpu (s : State) (x : Block) (o : Origin) (a : Nat) (p : Priv) (k : Kind) (id : Nat) :
    (s.recordFault x o a p k id).cpu = s.cpu := by
  unfold State.recordFault State.raise State.setMp; split_ifs <;> cases x <;> rfl

@[simp] theorem recordFault_free (s : State) (x : Block) (o : Origin) (a : Nat) (p : Priv) (k : Kind) (id : Nat) :
    (s.recordFault x o a p k id).free = s.free := by
  unfold State.recordFault State.raise State.setMp; split_ifs <;> cases x <;> rfl

@[simp] theorem putMasked_cpu (s : State) (a : Nat) (bs : List (Option Byte)) : (s.putMasked a bs).cpu = s.cpu := rfl

@[simp] theorem putBytes_cpu (s : State) (a : Nat) (bs : List Byte) : (s.putBytes a bs).cpu = s.cpu := rfl

@[simp] theorem raise_cpu (s : State) (e : Nat) : (s.raise e).cpu = s.cpu := rfl

@[simp] theorem busError_cpu (s : State) (op : BusOp) (x : BitVec 4) (t : BitVec 3) : (s.busError op x t).cpu = s.cpu := by
  unfold State.busError
  split_ifs
  · rw [raise_cpu, State.setEmc_cpu]
  · rfl

@[simp] theorem transact_cpu (s : State) (op : BusOp) (a n : Nat) (p : Priv) (id : Nat) :
    (s.transact op a n p id).1.cpu = s.cpu := by
  unfold State.transact
  split
  · rfl
  · rfl
  · dsimp only; rw [busError_cpu, State.setEmc_cpu]

@[simp] theorem busRead_cpu (s : State) (op : BusOp) (a n : Nat) (p : Priv) (id : Nat) :
    (s.busRead op a n p id).1.cpu = s.cpu := by
  unfold State.busRead
  by_cases hc : (s.transact op a n p id).2 <;> simp [hc, State.spend]

@[simp] theorem extPut_cpu (s : State) (a : Nat) (bs : List (Option Byte)) : (s.extPut a bs).cpu = s.cpu := rfl

@[simp] theorem busWrite_cpu (s : State) (op : BusOp) (f n a : Nat) (bs : List (Option Byte)) (p : Priv) (id : Nat) :
    (s.busWrite op f n a bs p id).cpu = s.cpu := by
  unfold State.busWrite
  dsimp only
  split_ifs <;> simp [State.spend]

@[simp] theorem extWriteLine_cpu (s : State) (v : Victim) : (s.extWriteLine v).cpu = s.cpu := busWrite_cpu ..

@[simp] theorem endDrain_cpu (s : State) : s.endDrain.cpu = s.cpu := rfl

@[simp] theorem finishOut_cpu (s : State) : s.finishOut.cpu = s.cpu := by
  unfold State.finishOut
  split <;> simp

@[simp] theorem l2Evict_cpu (s : State) (a : Nat) : (s.l2Evict a).cpu = s.cpu := by
  unfold State.l2Evict; dsimp only; repeat' split
  all_goals simp

@[simp] theorem outWord_cpu (s : State) (i : Nat) : (s.outWord i).cpu = s.cpu := by
  unfold State.outWord; split <;> simp

@[simp] theorem extRead_drainFill_cpu (s : State) (a n : Nat) (p : Priv) : (s.extRead .drainFill a n p).1.cpu = s.cpu := by
  unfold State.extRead; dsimp only; split <;> simp [State.dropServed]

@[simp] theorem l2Allocate_drainFill_cpu (s : State) (a : Nat) (p : Priv) : (s.l2Allocate .drainFill a p).1.cpu = s.cpu := by
  simp [State.l2Allocate]

@[simp] theorem l2Merge_cpu (s : State) (l : Line) (o : Nat) (bs : List (Option Byte)) : (s.l2Merge l o bs).cpu = s.cpu := rfl

@[simp] theorem wakePages_cpu (s : State) (a : Nat) : (s.wakePages a).cpu = s.cpu := rfl

@[simp] theorem l2Write_cpu (s : State) (e : WbEntry) : (s.l2Write e).cpu = s.cpu := by
  unfold State.l2Write; dsimp only; repeat' split
  all_goals simp

@[simp] theorem l2Take_cpu (s : State) (v : Victim) (ext : State → State) (h : ∀ t, (ext t).cpu = t.cpu) :
    (s.l2Take v ext).cpu = s.cpu := by
  unfold State.l2Take; repeat' split
  all_goals simp [h]

@[simp] theorem l2WriteVictim_cpu (s : State) (v : Victim) : (s.l2WriteVictim v).cpu = s.cpu :=
  l2Take_cpu s v _ fun t => extWriteLine_cpu t v

@[simp] theorem drainVictim_cpu (s : State) : s.drainVictim.cpu = s.cpu := by
  unfold State.drainVictim
  split
  · rfl
  · simp

theorem drainOne_cpu (s : State) : s.drainOne.cpu = s.cpu := by
  unfold State.drainOne
  dsimp only
  split <;> simp

/-- A drain takes the victim and the oldest entry, and changes nothing else of L1D. -/
theorem drainOne_l1d (s : State) : s.drainOne.l1d = { s.l1d with victim := none, wbuf := s.l1d.wbuf.tail } := by
  have h := drainVictim_l1d s
  unfold State.drainOne
  dsimp only
  split
  · next he => rw [h] at he ⊢; simp only at he; simp only [he, List.tail_nil]
  · next e r he => rw [h] at he; simp only at he; simp [h, he]

theorem drain_cpu (s : State) (n : Nat) : (s.drain n).cpu = s.cpu := by
  induction n generalizing s with
  | zero => rfl
  | succ n ih => exact (ih _).trans (drainOne_cpu s)

/-- What a read miss waits for leaves the CPU and the lines of L1D alone, and both buffers empty. -/
theorem drainAll_cpu (s : State) : s.drainAll.cpu = s.cpu := (drain_cpu _ _).trans (drainVictim_cpu s)

theorem drain_l1d (s : State) (n : Nat) (h : s.l1d.wbuf.length = n) (hv : s.l1d.victim = none) :
    (s.drain n).l1d = { s.l1d with victim := none, wbuf := [] } := by
  induction n generalizing s with
  | zero => rw [State.drain, ← hv, ← List.length_eq_zero_iff.1 h]
  | succ n ih => rw [State.drain, ih _ (by rw [drainOne_l1d]; simp [h]) (by rw [drainOne_l1d]), drainOne_l1d]

theorem drainAll_l1d (s : State) : s.drainAll.l1d = { s.l1d with victim := none, wbuf := [] } := by
  have h := drainVictim_l1d s
  unfold State.drainAll
  rw [drain_l1d _ _ rfl (by rw [h]), h]

/-! ### L1D accesses -/

theorem quiet_enqueue (s : State) (a : Nat) (bs : List Byte) (p : Priv) (m : Bool) : Quiet s (s.enqueue a bs p m) := by
  unfold State.enqueue
  refine (quiet_drainVictim s).trans ?_
  dsimp only
  split
  · next e he =>
    have hne : s.drainVictim.l1d.wbuf ≠ [] := by
      intro h; rw [h] at he; cases he
    split_ifs with h1 h2
    · refine quiet_setL1d _ _ rfl rfl rfl (fun i => ?_) fun i => i.frames .l1d
      have := i.wbuf
      have hp := List.length_pos_iff.2 hne
      simp only [List.length_append, List.length_dropLast, List.length_singleton]
      omega
    · refine quiet_setL1d _ _ rfl rfl rfl (fun _ => ?_) fun i => i.frames .l1d
      simp only [List.length_append, List.length_singleton]
      omega
    · refine (quiet_drainOne _).thenL1d _ rfl rfl rfl (fun i => ?_) fun i => i.frames .l1d
      have := i.wbuf
      simp only [List.length_append, List.length_singleton, drainOne_wbuf, List.length_tail]
      omega
  · exact quiet_setL1d _ _ rfl rfl rfl (fun _ => by simp) fun i => i.frames .l1d

theorem quiet_l1dEvict (s : State) (set way : Nat) : Quiet s (s.l1dEvict set way) := by
  unfold State.l1dEvict
  split
  · exact quiet_setL1d s _ rfl rfl rfl (fun i => i.wbuf) fun i => framesDistinct_dropLine _ _ (i.frames .l1d)
  · exact Quiet.refl s

theorem quiet_l1dAllocate (s : State) (a : Nat) (m : BitVec 16) (p : Priv) : Quiet s (s.l1dAllocate a m p).1 := by
  unfold State.l1dAllocate
  dsimp only
  have ht := L1d.touch_eq
  exact Quiet.trans (Quiet.trans (quiet_l1dEvict s _ _) (quiet_l2Read _ _ _ _ _))
    (quiet_setL1d _ _ (ht _ _ _).1 (ht _ _ _).2.1 (ht _ _ _).2.2.1
      (fun i => (congrArg List.length (ht _ _ _).2.2.2).trans_le i.wbuf)
      fun i => by rw [L1d.touch_lines]; exact framesDistinct_putLine _ (i.frames .l1d))

theorem quiet_loadCached (s : State) (a n : Nat) (m : Bool) : Quiet s (s.loadCached a n m).1 := by
  unfold State.loadCached
  dsimp only
  split
  · split
    · exact quiet_touch1 ..
    · exact quiet_deniedRead ..
  · split
    · split
      · exact (quiet_drainAll s).trans (quiet_l1dAllocate ..)
      · exact (quiet_drainAll s).trans (quiet_l2Read ..)
    · refine (Quiet.trans (quiet_drainAll s) ?_).trans (quiet_deniedRead ..)
      exact Quiet.ite (quiet_l2Probe ..) (quiet_l2Probe ..)

theorem quiet_cpuAtL1P (s : State) (a : Nat) (k : Kind) : Quiet s (s.cpuAtL1P a k) :=
  (Quiet.ite (quiet_recordFault ..) (Quiet.refl s)).trans (quiet_spend _)

theorem quiet_loadPiece {s : State} {a n : Nat} {m : Bool} {r : State × List Byte} (h : s.loadPiece a n m = .ok r) : Quiet s r.1 := by
  unfold State.loadPiece at h
  repeat' split at h
  all_goals cases h
  all_goals first
    | exact Quiet.refl s
    | exact quiet_deniedRead ..
    | exact quiet_cpuAtL1P ..
    | exact (quiet_wakeForCpu ..).trans (quiet_loadCached ..)
    | exact (quiet_drainAll s).trans (quiet_busRead ..)

theorem quiet_storeCached (s : State) (a : Nat) (bs : List Byte) (m : Bool) : Quiet s (s.storeCached a bs m) := by
  unfold State.storeCached
  split
  · split
    · have ht := L1d.touch_eq
      exact quiet_setL1d _ _ (ht _ _ _).1 (ht _ _ _).2.1 (ht _ _ _).2.2.1
        (fun i => (congrArg List.length (ht _ _ _).2.2.2).trans_le i.wbuf)
        fun i => by rw [L1d.touch_lines]; exact framesDistinct_putLine _ (i.frames .l1d)
    · exact quiet_recordFault ..
  · exact quiet_enqueue ..

theorem quiet_storePiece {s t : State} {a : Nat} {bs : List Byte} {m : Bool} (h : s.storePiece a bs m = .ok t) : Quiet s t := by
  unfold State.storePiece at h
  repeat' split at h
  all_goals cases h
  all_goals first
    | exact quiet_putBytes ..
    | exact quiet_recordFault ..
    | exact quiet_cpuAtL1P ..
    | exact (quiet_wakeForCpu ..).trans (quiet_storeCached ..)
    | exact quiet_enqueue ..

theorem quiet_writebackLine (s : State) (set way : Nat) : Quiet s (s.writebackLine set way) := by
  unfold State.writebackLine
  dsimp only
  split
  · split
    · exact (quiet_drainVictim s).trans
        (quiet_setL1d _ _ rfl rfl rfl (fun i => i.wbuf) fun i => framesDistinct_putLine _ (i.frames .l1d))
    · exact Quiet.refl s
  · exact Quiet.refl s

theorem quiet_evictFor (s : State) (x : Option Access) : Quiet s (s.evictFor x) := by
  unfold State.evictFor
  split
  · exact Quiet.refl s
  · exact (quiet_l2Evict ..).trans (Quiet.ite (quiet_setCpu _ _ rfl) (Quiet.refl _))

/-! ### Fetches -/

theorem quiet_l1pFill (s : State) (a : Nat) : Quiet s (s.l1pFill a).1 := by
  unfold State.l1pFill
  dsimp only
  split
  · exact (quiet_l2Read ..).trans (quiet_setL1p _ _ rfl rfl rfl fun i => framesDistinct_putLine _ (i.frames .l1p))
  · exact quiet_l2Read ..

theorem quiet_fetchPermissionFault (s : State) (a : Nat) : Quiet s (s.fetchPermissionFault a) :=
  (Quiet.ite (quiet_setCpu s _ (by rfl)) (Quiet.refl s)).trans (quiet_setReply _ _)

theorem quiet_fetchPacket {s t : State} {a : Nat} (h : s.fetchPacket a = .ok t) : Quiet s t := by
  unfold State.fetchPacket at h
  dsimp only at h
  repeat' split at h
  all_goals cases h
  all_goals first
    | exact quiet_setReply ..
    | exact quiet_fetchPermissionFault ..
    | exact (quiet_wakeForCpu ..).trans (quiet_setReply ..)
    | exact (quiet_wakeForCpu ..).trans (quiet_fetchPermissionFault ..)
    | exact ((quiet_wakeForCpu ..).trans (quiet_l1pFill ..)).trans (quiet_setReply _ _)
    | exact ((quiet_wakeForCpu ..).trans (quiet_l1pFill ..)).trans (quiet_fetchPermissionFault _ _)

theorem quiet_prefetchPacket {s t : State} {a : Nat} (h : s.prefetchPacket a = .ok t) : Quiet s t := by
  unfold State.prefetchPacket at h
  dsimp only at h
  repeat' split at h
  all_goals cases h
  all_goals first
    | exact Quiet.refl s
    | exact quiet_wakeForCpu ..
    | exact (quiet_wakeForCpu ..).trans (quiet_l1pFill ..)

/-! ### Sequences of steps of one CPU access -/

theorem quiet_setRest (s : State) (r : Option AccessRest) : Quiet s (s.setRest r) := quiet_setCpu s _ (by rfl)

theorem quiet_endAccess (s : State) : Quiet s s.endAccess :=
  (quiet_setCpu s _ (by rfl)).trans (quiet_setEmc _ _)

theorem quiet_setAhead (s : State) (k : AheadKind) (l : List Ahead) : Quiet s (s.setAhead k l) := by
  cases k <;> first | exact quiet_setCpu s _ (by rfl) | exact quiet_setEmc s _

theorem quiet_readAhead (s : State) (k : AheadKind) (a n : Nat) : Quiet s (s.readAhead k a n) := by
  unfold State.readAhead
  split
  · split
    · exact (quiet_wakeForCpu ..).trans (quiet_setAhead ..)
    · exact Quiet.refl s
  · exact Quiet.refl s

/-! ### DMA-class accesses -/

theorem quiet_snoopWrite (s : State) (a : Nat) (bs : List (Option Byte)) : Quiet s (s.snoopWrite a bs) := by
  unfold State.snoopWrite
  split
  · exact quiet_lines1 _ _ fun i => framesDistinct_putLine _ (i.frames .l1d)
  · exact Quiet.refl s

theorem quiet_memReadAs {s : State} {id : Nat} {p : Priv} {a n : Nat} {c : Bool} {b : Refusal} {r : State × List Byte}
    (h : s.memReadAs id p a n c b = .ok r) : Quiet s r.1 := by
  have hw : Quiet s (s.drainVictim.wakePages a) := (quiet_drainVictim s).trans (quiet_wakePages ..)
  unfold State.memReadAs at h
  dsimp only at h
  repeat' split at h
  all_goals cases h
  all_goals first
    | exact Quiet.refl s
    | exact hw
    | exact quiet_busRead ..
    | exact quiet_deniedRead ..
    | exact hw.trans (quiet_deniedRead ..)

theorem quiet_memWriteAs {s t : State} {id : Nat} {p : Priv} {a : Nat} {bs : List Byte} {c : Bool} {b : Refusal}
    (h : s.memWriteAs id p a bs c b = .ok t) : Quiet s t := by
  have hw : Quiet s (s.drainVictim.wakePages a) := (quiet_drainVictim s).trans (quiet_wakePages ..)
  unfold State.memWriteAs at h
  dsimp only at h
  repeat' split at h
  all_goals cases h
  all_goals first
    | exact quiet_putBytes ..
    | exact quiet_recordFault ..
    | exact quiet_busWrite ..
    | exact (hw.trans (quiet_putBytes ..)).trans (quiet_snoopWrite ..)
    | exact hw.trans (quiet_recordFault ..)

end Sys2Proof.Machine
end

