-- ==== Sys2Proof/Laws/Engines.lean ====
section
/-!
SUPPORT. What coherence operations, mode changes, the engines, the sampling of the CPU's inputs and the resets leave alone.
`Keeps s t` is the weaker relation of moves that may change the state only supervisor code may write.
-/
namespace Sys2Proof.Machine

/-- A move that keeps the platform, the CPU's privilege, the agenda and the invariant. -/
structure Keeps (s t : State) : Prop where
  plat   : t.plat = s.plat
  priv   : t.cpu.priv = s.cpu.priv
  agenda : t.agenda = s.agenda
  inv    : s.Inv → t.Inv

theorem Quiet.keeps {s t : State} (h : Quiet s t) : Keeps s t := ⟨h.plat, h.priv, h.agenda, h.inv⟩

theorem Keeps.refl (s : State) : Keeps s s := ⟨rfl, rfl, rfl, id⟩

theorem Keeps.trans {s t u : State} (h : Keeps s t) (k : Keeps t u) : Keeps s u :=
  ⟨k.plat.trans h.plat, k.priv.trans h.priv, k.agenda.trans h.agenda, fun i => k.inv (h.inv i)⟩

theorem Keeps.ite {s t u : State} {c : Prop} [Decidable c] (h : Keeps s t) (k : Keeps s u) :
    Keeps s (if c then t else u) := by split_ifs <;> assumption

theorem Quiet.foldl {α : Type} (f : State → α → State) (hf : ∀ s x, Quiet s (f s x)) (l : List α) (s : State) :
    Quiet s (l.foldl f s) := by
  induction l generalizing s with
  | nil => exact Quiet.refl s
  | cons x t ih => exact (hf s x).trans (ih _)

theorem Keeps.foldl {α : Type} (f : State → α → State) (hf : ∀ s x, Keeps s (f s x)) (l : List α) (s : State) :
    Keeps s (l.foldl f s) := by
  induction l generalizing s with
  | nil => exact Keeps.refl s
  | cons x t ih => exact (hf s x).trans (ih _)

/-! ### Coherence operations -/

/-- A controller's slot is set: the machine must have no second operation then. -/
theorem quiet_setOp (s : State) (x : Block) (o : Option CohOp) (h : s.Inv → (s.setOp x o).oneOp = true) :
    Quiet s (s.setOp x o) := by
  have hs : (s.setOp x o).supervised = s.supervised := by cases x <;> rfl
  have hp : (s.setOp x o).mppaReserved = s.mppaReserved := by cases x <;> rfl
  have hw : (s.setOp x o).l1d.wbuf = s.l1d.wbuf := by cases x <;> rfl
  exact ⟨by cases x <;> rfl, hs, by cases x <;> rfl, by cases x <;> rfl, fun i =>
    ⟨(by cases x <;> rfl : (s.setOp x o).mem = s.mem) ▸ i.1, hp ▸ i.2, (by cases x <;> rfl : (s.setOp x o).combinedReserved = _) ▸ i.3,
      (by cases x <;> rfl : (s.setOp x o).bwmReserved = _) ▸ i.4, (by cases x <;> rfl : (s.setOp x o).idmaReserved = _) ▸ i.5,
      hw ▸ i.6, (by cases x <;> rfl : (s.setOp x o).idma0 = _) ▸ i.7, (by cases x <;> rfl : (s.setOp x o).idma1 = _) ▸ i.8, h i,
      fun y => (by cases x <;> cases y <;> rfl : (s.setOp x o).linesOf y = s.linesOf y) ▸ i.frames y⟩⟩

/-- A slot that holds an operation holds another state of it, or none. -/
theorem quiet_setOpKeep (s : State) (x : Block) (o : Option CohOp) {p : CohOp} (h : s.opOf x = some p) :
    Quiet s (s.setOp x o) := by
  refine quiet_setOp s x o fun i => ?_
  have k := i.9
  cases x <;> simp_all [State.oneOp, State.opOf, State.setOp]

/-- A slot is emptied. -/
theorem quiet_clearOp (s : State) (x : Block) : Quiet s (s.setOp x none) := by
  refine quiet_setOp s x none fun i => ?_
  have k := i.9
  cases x <;> simp [State.oneOp, State.setOp] at k ⊢ <;> tauto

theorem quiet_l1dLineOp (s : State) (c : CohAction) (l : Line) : Quiet s (s.l1dLineOp c l) := by
  unfold State.l1dLineOp
  dsimp only
  split
  · exact quiet_lines1 _ _ fun i => framesDistinct_dropLine _ _ (i.frames .l1d)
  · exact Quiet.ite ((quiet_lines1 _ _ fun i => framesDistinct_putLine _ (i.frames .l1d)).trans (quiet_l2WriteVictim ..))
      (Quiet.refl s)
  · exact Quiet.ite ((quiet_lines1 _ _ fun i => framesDistinct_dropLine _ _ (i.frames .l1d)).trans (quiet_l2WriteVictim ..))
      (quiet_lines1 _ _ fun i => framesDistinct_dropLine _ _ (i.frames .l1d))

theorem quiet_treatL1d (s : State) (c : CohAction) (l : Line) : Quiet s (s.treatL1d c l) :=
  (Quiet.ite (quiet_drainVictim s) (Quiet.refl s)).trans (quiet_l1dLineOp ..)

theorem quiet_treatL2 (s : State) (c : CohAction) (l : Line) : Quiet s (s.treatL2 c l) := by
  have hd : Quiet s (s.setL2 { s.l2 with lines := dropLine s.l2.lines l.set l.way }) :=
    quiet_lines2 _ _ fun i => framesDistinct_dropLine _ _ (i.frames .l2)
  have hp : Quiet s (s.setL2 { s.l2 with lines := putLine s.l2.lines { l with dirty := false } }) :=
    quiet_lines2 _ _ fun i => framesDistinct_putLine _ (i.frames .l2)
  unfold State.treatL2
  dsimp only
  split
  · exact hd
  · exact Quiet.ite ((hp.trans (quiet_finishOut _)).trans (quiet_extWriteLine ..)) (Quiet.refl s)
  · exact Quiet.ite ((hd.trans (quiet_finishOut _)).trans (quiet_extWriteLine ..)) hd

theorem quiet_treat (s : State) (o : CohOp) (f : Frame) : Quiet s (s.treat o f) := by
  unfold State.treat
  repeat' split
  · exact quiet_setL1p s _ rfl rfl rfl fun i => framesDistinct_dropLine _ _ (i.frames .l1p)
  · exact quiet_treatL1d ..
  · exact quiet_treatL2 ..
  · exact Quiet.refl s
  · exact Quiet.refl s

theorem quiet_treatBelow (s : State) (o : CohOp) (a : Nat) : Quiet s (s.treatBelow o a) := by
  unfold State.treatBelow
  split
  · exact Quiet.ite (quiet_treat ..) (Quiet.refl s)
  · exact Quiet.refl s

theorem quiet_settle (s : State) (o : CohOp) : Quiet s (s.settle o) := by
  unfold State.settle
  have h : ∀ t : State, Quiet t (if covers o .l2 t.l2.out then t.finishOut else t) :=
    fun t => Quiet.ite (quiet_finishOut t) (Quiet.refl t)
  dsimp only
  split
  · exact (Quiet.ite ((quiet_drainVictim s).trans (quiet_treatBelow ..)) (Quiet.refl s)).trans (h _)
  · exact h s

theorem quiet_treatAll (s : State) (o : CohOp) (fs : List Frame) : Quiet s (s.treatAll o fs) :=
  Quiet.foldl _ (fun t f => quiet_treat t o f) fs s

theorem quiet_treatL2Frames (s : State) (o : CohOp) : Quiet s (s.treatL2Frames o) :=
  Quiet.ite (Quiet.refl s) ((quiet_settle s o).trans (quiet_treatAll ..))

theorem quiet_cohSkip (s : State) (x : Block) (i : Nat) : Quiet s (s.cohSkip x i) := by
  unfold State.cohSkip
  repeat' split
  all_goals first
    | exact Quiet.refl s
    | exact quiet_setOpKeep s _ _ (by assumption)

theorem quiet_cohExtra (s : State) (x : Block) (f : Frame) : Quiet s (s.cohExtra x f) := by
  unfold State.cohExtra
  split
  · exact Quiet.refl s
  · exact Quiet.ite (quiet_treat ..) (Quiet.refl s)

theorem quiet_loosenOp (s old : State) (acc : Nat × Nat) (x : Block) : Quiet s (s.loosenOp old acc x) := by
  unfold State.loosenOp
  split
  · exact Quiet.refl s
  · next h => exact quiet_setOpKeep s _ _ h

theorem quiet_loosen (old s : State) (acc : Nat × Nat) : Quiet s (old.loosen s acc) :=
  ((quiet_loosenOp ..).trans (quiet_loosenOp ..)).trans (quiet_loosenOp ..)

theorem quiet_finishOp (s : State) (x : Block) : Quiet s (s.finishOp x) := by
  unfold State.finishOp
  split
  · exact Quiet.refl s
  · exact (((quiet_treatAll ..).trans (quiet_treatL2Frames ..)).trans (quiet_settle ..)).trans (quiet_clearOp ..)

theorem quiet_finishOps (s : State) : Quiet s s.finishOps :=
  ((quiet_finishOp s .l1p).trans (quiet_finishOp _ .l1d)).trans (quiet_finishOp _ .l2)

/-! No operation is in progress once the operations have finished. -/

@[simp] theorem setOp_opOf (s : State) (x y : Block) (o : Option CohOp) :
    (s.setOp x o).opOf y = if y = x then o else s.opOf y := by cases x <;> cases y <;> rfl

theorem busError_opOf (s : State) (op : BusOp) (x : BitVec 4) (t : BitVec 3) (y : Block) :
    (s.busError op x t).opOf y = s.opOf y := by
  have h : ∀ e : Emc, ((s.setEmc e).raise 127).opOf y = s.opOf y := fun _ => by cases y <;> rfl
  unfold State.busError
  split_ifs
  · exact h _
  · rfl

theorem transact_opOf (s : State) (op : BusOp) (a n : Nat) (p : Priv) (id : Nat) (y : Block) :
    (s.transact op a n p id).1.opOf y = s.opOf y := by
  unfold State.transact
  split
  · cases y <;> rfl
  · cases y <;> rfl
  · exact (busError_opOf ..).trans (by cases y <;> rfl)

theorem busWrite_opOf (s : State) (op : BusOp) (f n a : Nat) (bs : List (Option Byte)) (p : Priv) (id : Nat) (y : Block) :
    (s.busWrite op f n a bs p id).opOf y = s.opOf y := by
  refine Eq.trans ?_ (transact_opOf s op f n p id y)
  unfold State.busWrite; dsimp only
  split_ifs <;> cases y <;> rfl

theorem putMasked_opOf (s : State) (a : Nat) (bs : List (Option Byte)) (y : Block) : (s.putMasked a bs).opOf y = s.opOf y := by
  cases y <;> rfl

theorem finishOut_opOf (s : State) (y : Block) : s.finishOut.opOf y = s.opOf y := by
  unfold State.finishOut
  split
  · rfl
  · exact (busWrite_opOf ..).trans (by cases y <;> rfl)

theorem l2WriteVictim_opOf (s : State) (v : Victim) (y : Block) : (s.l2WriteVictim v).opOf y = s.opOf y := by
  unfold State.l2WriteVictim State.l2Take State.extWriteLine
  repeat' split
  · exact (putMasked_opOf ..).trans (by cases y <;> rfl)
  · rfl
  · cases y <;> rfl
  · exact (busWrite_opOf ..).trans (finishOut_opOf ..)

theorem drainVictim_opOf (s : State) (y : Block) : s.drainVictim.opOf y = s.opOf y := by
  unfold State.drainVictim
  split
  · rfl
  · exact (l2WriteVictim_opOf ..).trans (by cases y <;> rfl)

theorem l1dLineOp_opOf (s : State) (c : CohAction) (l : Line) (y : Block) : (s.l1dLineOp c l).opOf y = s.opOf y := by
  unfold State.l1dLineOp
  dsimp only
  repeat' split
  all_goals first
    | (cases y <;> rfl)
    | exact (l2WriteVictim_opOf ..).trans (by cases y <;> rfl)

theorem treatL1d_opOf (s : State) (c : CohAction) (l : Line) (y : Block) : (s.treatL1d c l).opOf y = s.opOf y := by
  unfold State.treatL1d
  split
  · exact (l1dLineOp_opOf ..).trans (drainVictim_opOf ..)
  · exact l1dLineOp_opOf ..

theorem treat_opOf (s : State) (o : CohOp) (f : Frame) (y : Block) : (s.treat o f).opOf y = s.opOf y := by
  unfold State.treat State.treatL2 State.treatL1p State.extWriteLine
  dsimp only
  repeat' split
  all_goals first
    | (cases y <;> rfl)
    | exact treatL1d_opOf ..
    | exact ((busWrite_opOf ..).trans (finishOut_opOf ..)).trans (by cases y <;> rfl)

theorem treatAll_opOf (s : State) (o : CohOp) (l : List Frame) (y : Block) : (s.treatAll o l).opOf y = s.opOf y := by
  unfold State.treatAll
  induction l generalizing s with
  | nil => rfl
  | cons f t ih => exact (ih _).trans (treat_opOf s o f y)

theorem settle_opOf (s : State) (o : CohOp) (y : Block) : (s.settle o).opOf y = s.opOf y := by
  unfold State.settle State.treatBelow
  dsimp only
  repeat' split
  all_goals simp [treat_opOf, drainVictim_opOf, finishOut_opOf]

theorem treatL2Frames_opOf (s : State) (o : CohOp) (y : Block) : (s.treatL2Frames o).opOf y = s.opOf y := by
  unfold State.treatL2Frames
  split
  · rfl
  · exact (treatAll_opOf ..).trans (settle_opOf ..)

/-- The L2 frames join the list of the operation in a slot. -/
theorem quiet_listL2 {s : State} {x : Block} {o : CohOp} (h : s.opOf x = some o) : Quiet s (s.listL2 x o) :=
  (quiet_settle s o).trans (quiet_setOpKeep _ _ _ ((settle_opOf s o x).trans h))

theorem quiet_cohStep (s : State) (x : Block) (i : Nat) : Quiet s (s.cohStep x i) := by
  unfold State.cohStep
  repeat' split
  all_goals first
    | exact Quiet.refl s
    | exact (quiet_settle ..).trans (quiet_clearOp ..)
    | exact quiet_listL2 (by assumption)
    | exact (quiet_setOpKeep s _ _ (by assumption)).trans (quiet_treat ..)

theorem finishOp_opOf (s : State) (x y : Block) : (s.finishOp x).opOf y = if y = x then none else s.opOf y := by
  unfold State.finishOp
  split
  · next k => split_ifs with e <;> simp [e, k]
  · simp [settle_opOf, treatL2Frames_opOf, treatAll_opOf]

/-- No operation is left in any slot. -/
theorem finishOps_opOf (s : State) (y : Block) : s.finishOps.opOf y = none := by
  simp only [State.finishOps, finishOp_opOf]
  cases y <;> simp

/-- A start finds no operation in progress, since the write that starts it has waited (spec/42_l2.md R306). -/
theorem quiet_startOp (s : State) (r : CohReg) (b n : Nat) (h : ∀ y, s.opOf y = none) : Quiet s (s.startOp r b n) := by
  refine ((quiet_drainVictim s).trans (quiet_finishOut _)).trans (quiet_setOp _ _ _ fun _ => ?_)
  have k := fun y => ((finishOut_opOf s.drainVictim y).trans (drainVictim_opOf s y)).trans (h y)
  have k1 := k .l1p
  have k2 := k .l1d
  have k3 := k .l2
  simp only [State.opOf] at k1 k2 k3
  generalize s.drainVictim.finishOut = u at k1 k2 k3 ⊢
  cases cohBlock r <;> simp [State.oneOp, State.setOp, k1, k2, k3]

theorem quiet_writeGlobal (s : State) (r : CohReg) (v : Word) : Quiet s (s.writeGlobal r v) :=
  Quiet.ite ((quiet_finishOps s).trans (quiet_startOp _ _ _ _ (finishOps_opOf s))) (quiet_finishOps s)

theorem quiet_setBar (s : State) (r : CohReg) (b : Bar) : Quiet s (s.setBar r b) := by
  cases r <;> first
    | exact Quiet.refl s
    | exact quiet_setL1p s _ rfl rfl rfl fun i => i.frames .l1p
    | exact quiet_setL1d s _ rfl rfl rfl (fun i => i.wbuf) fun i => i.frames .l1d
    | exact quiet_setL2 s _ rfl rfl rfl rfl rfl fun i => i.frames .l2

theorem setBar_opOf (s : State) (r : CohReg) (b : Bar) (y : Block) : (s.setBar r b).opOf y = s.opOf y := by
  cases r <;> cases y <;> rfl

theorem quiet_writeBar (s : State) (r : CohReg) (v : Word) : Quiet s (s.writeBar r v) :=
  (quiet_finishOps s).trans (quiet_setBar ..)

theorem quiet_startBlock {s t : State} {r : CohReg} {n : Nat} (h : s.startBlock r n = .ok t) (ho : ∀ y, s.opOf y = none) :
    Quiet s t := by
  unfold State.startBlock at h
  dsimp only at h
  repeat' split at h
  all_goals cases h
  · exact (quiet_setBar ..).trans (quiet_startOp _ _ _ _ fun y => (setBar_opOf ..).trans (ho y))
  · exact (quiet_spend s).trans (quiet_startOp _ _ _ _ fun y => (by cases y <;> rfl : s.spend.opOf y = _).trans (ho y))

theorem quiet_writeCount {s t : State} {r : CohReg} {v : Word} (h : s.writeCount r v = .ok t) : Quiet s t := by
  unfold State.writeCount at h
  split at h
  · cases h; exact quiet_finishOps s
  · exact (quiet_finishOps s).trans (quiet_startBlock h (finishOps_opOf s))

/-! ### Mode changes -/

theorem Quiet.thenL1p {s t : State} (h : Quiet s t) (x : L1p) (hp : x.mppa = t.l1p.mppa) (ho : x.op = t.l1p.op)
    (hf : t.Inv → framesDistinct x.lines = true) : Keeps s (t.setL1p x) :=
  ⟨h.plat, h.priv, h.agenda, fun i => have k := h.inv i
    ⟨k.1, by have := k.2; simpa [State.mppaReserved, hp] using this, k.3, k.4, k.5, k.6, k.7, k.8,
      by have := k.9; simpa [State.oneOp, ho] using this, k.framesL1p x (hf k)⟩⟩

theorem Quiet.thenL1dMode {s t : State} (h : Quiet s t) (m : BitVec 3) :
    Keeps s (t.setL1d { t.l1d with mode := m, lines := [] }) :=
  ⟨h.plat, h.priv, h.agenda, fun i => have k := h.inv i
    ⟨k.1, by have := k.2; simpa [State.mppaReserved] using this, k.3, k.4, k.5, k.6, k.7, k.8, k.9,
      k.framesL1d { t.l1d with mode := m, lines := [] } rfl⟩⟩

theorem Quiet.thenL2 {s t : State} (h : Quiet s t) (x : L2) (hp : x.mppa = t.l2.mppa) (ho : x.op = t.l2.op)
    (hf : t.Inv → framesDistinct x.lines = true) : Keeps s (t.setL2 x) :=
  ⟨h.plat, h.priv, h.agenda, fun i => have k := h.inv i
    ⟨k.1, by have := k.2; simpa [State.mppaReserved, hp] using this, k.3, k.4, k.5, k.6, k.7, k.8,
      by have := k.9; simpa [State.oneOp, ho] using this, k.framesL2 x (hf k)⟩⟩

theorem quiet_setAsleep (s : State) (x : Block) : Quiet s (s.setAsleep x) := by cases x <;> exact quiet_setPdc s _ (by rfl)

theorem keeps_setL1pMode (s : State) (m : BitVec 3) : Keeps s (s.setL1pMode m) :=
  ((Quiet.refl s).thenL1p { s.l1p with mode := m, lines := [] } rfl rfl fun _ => rfl).trans
    ((quiet_setAsleep _ _).trans (quiet_forget _ _)).keeps

theorem quiet_flushL1d (s : State) : Quiet s s.flushL1d :=
  (quiet_drainVictim s).trans (Quiet.foldl _ (fun t l => quiet_treatL1d t .wbinv l) _ _)

theorem quiet_flushL2 (s : State) : Quiet s s.flushL2 := Quiet.foldl _ (fun t l => quiet_treatL2 t .wbinv l) _ _

theorem keeps_setL1dMode (s : State) (m : BitVec 3) : Keeps s (s.setL1dMode m) :=
  ((quiet_flushL1d s).thenL1dMode m).trans ((quiet_setAsleep _ _).trans (quiet_forget _ _)).keeps

theorem keeps_setL2Mode (s : State) (m : BitVec 3) : Keeps s (s.setL2Mode m) :=
  ((((quiet_drainVictim s).trans (quiet_finishOut _)).trans (quiet_flushL2 _)).thenL2
    { s.drainVictim.finishOut.flushL2.l2 with mode := m, lines := [] } rfl rfl fun _ => rfl).trans
    (((quiet_setAsleep _ _).trans (quiet_forget _ _)).trans (quiet_forget _ _)).keeps

theorem quiet_l2cfgInvalidates (s : State) (v : Word) : Quiet s (s.l2cfgInvalidates v) := by
  have h : ∀ (t : State) (r : CohReg), Quiet t (t.finishOps.startOp r 0 0) := fun t r =>
    (quiet_finishOps t).trans (quiet_startOp _ _ _ _ (finishOps_opOf t))
  exact (Quiet.ite (h s .l1pinv) (Quiet.refl s)).trans (Quiet.ite (h _ .l1dinv) (Quiet.refl _))

theorem keeps_writeL2cfg (s : State) (v : Word) : Keeps s (s.writeL2cfg v) :=
  ((quiet_l2cfgInvalidates s v).thenL2 { (s.l2cfgInvalidates v).l2 with cc := bit v 3 } rfl rfl fun i => i.frames .l2).trans
    (keeps_setL2Mode _ _)

/-! ### IDMA -/

theorem quiet_setIdma0 (s : State) (x : Chan) (hs : s.Inv → onlyBits idma0AddrMask x.source = true)
    (hd : s.Inv → onlyBits idma0AddrMask x.dest = true) (hc : s.Inv → onlyBits idma0CountMask x.count = true)
    (hq : s.Inv → x.queued = true) : Quiet s (s.setIdma0 x) :=
  ⟨rfl, rfl, rfl, rfl, fun h => ⟨h.1, h.2, h.3, h.4, by
    have := h.5
    simp only [State.idmaReserved, Bool.and_eq_true] at this
    simp [State.idmaReserved, hs h, hd h, hc h, this.2], h.6, hq h, h.8, h.9, h.10⟩⟩

theorem quiet_setIdma1 (s : State) (x : Chan) (hc : s.Inv → onlyBits idma1CountMask x.count = true)
    (hq : s.Inv → x.queued = true) : Quiet s (s.setIdma1 x) :=
  ⟨rfl, rfl, rfl, rfl, fun h => ⟨h.1, h.2, h.3, h.4, by
    have := h.5
    simp only [State.idmaReserved, Bool.and_eq_true] at this
    simp [State.idmaReserved, hc h, this.1], h.6, h.7, hq h, h.9, h.10⟩⟩

/-- The reserved bits of the channel 0 registers. -/
theorem State.Inv.idma0 {s : State} (h : s.Inv) : onlyBits idma0AddrMask s.idma0.source = true ∧
    onlyBits idma0AddrMask s.idma0.dest = true ∧ onlyBits idma0CountMask s.idma0.count = true := by
  have := h.5
  simp only [State.idmaReserved, Bool.and_eq_true] at this
  exact ⟨this.1.1.1, this.1.1.2, this.1.2⟩

/-- The reserved bits of the channel 1 count register. -/
theorem State.Inv.idma1 {s : State} (h : s.Inv) : onlyBits idma1CountMask s.idma1.count = true := by
  have := h.5
  simp only [State.idmaReserved, Bool.and_eq_true] at this
  exact this.2

/-- A move of a channel that keeps its parameter registers, but for a legal count. -/
theorem quiet_setChan (s : State) (c : Fin 2) (x : Chan) (hs : x.source = (s.chan c).source) (hd : x.dest = (s.chan c).dest)
    (h0 : s.Inv → c = 0 → onlyBits idma0CountMask x.count = true) (h1 : s.Inv → c = 1 → onlyBits idma1CountMask x.count = true)
    (hq : s.Inv → x.queued = true) : Quiet s (s.setChan c x) := by
  unfold State.setChan
  unfold State.chan at hs hd
  split_ifs at hs hd ⊢ with hc
  · exact quiet_setIdma0 s x (fun i => hs ▸ i.idma0.1) (fun i => hd ▸ i.idma0.2.1) (fun i => h0 i hc) hq
  · exact quiet_setIdma1 s x (fun i => h1 i (by omega)) hq

theorem quiet_setChanKeep (s : State) (c : Fin 2) (x : Chan) (hs : x.source = (s.chan c).source)
    (hd : x.dest = (s.chan c).dest) (hc : x.count = (s.chan c).count) (hq : s.Inv → x.queued = true) :
    Quiet s (s.setChan c x) :=
  quiet_setChan s c x hs hd (fun i h => by subst h; rw [hc]; exact i.idma0.2.2) (fun i h => by subst h; rw [hc]; exact i.idma1) hq

theorem Chan.promote_queued (x : Chan) : x.promote.queued = true := rfl

theorem quiet_promote (s : State) (c : Fin 2) : Quiet s (s.setChan c (s.chan c).promote) :=
  quiet_setChanKeep s c _ rfl rfl rfl fun _ => rfl

theorem quiet_completeIdma (s : State) (c : Fin 2) (t : Xfer) : Quiet s (s.completeIdma c t) :=
  (Quiet.ite (quiet_raise _ _ (by omega)) (Quiet.refl s)).trans (quiet_promote _ c)

theorem quiet_setPos (s : State) (c : Fin 2) (t : Xfer) (n : Nat) : Quiet s (s.setPos c t n) :=
  quiet_setChanKeep s c _ rfl rfl rfl fun _ => by simp [Chan.queued]

/-- A submission keeps the registers and leaves no pending transfer without an active one. -/
theorem Chan.submit_ok {x y : Chan} {c : Fin 2} {t : Xfer} (h : x.submit c t = .ok y) :
    y.mask = x.mask ∧ y.source = x.source ∧ y.dest = x.dest ∧ y.count = x.count ∧ y.stage = .none ∧
      ((x.active = none ∧ y.active = some t ∧ y.pending = x.pending) ∨
        (x.active ≠ none ∧ x.pending = none ∧ y.active = x.active ∧ y.pending = some t)) := by
  unfold Chan.submit at h
  split at h
  · cases h; exact ⟨rfl, rfl, rfl, rfl, rfl, .inl ⟨by assumption, rfl, rfl⟩⟩
  · next a ha hp => cases h; exact ⟨rfl, rfl, rfl, rfl, rfl, .inr ⟨by simp [ha], hp, rfl, rfl⟩⟩
  · cases h

theorem Chan.submit_queued {x y : Chan} {c : Fin 2} {t : Xfer} (h : x.submit c t = .ok y) : y.queued = true := by
  rcases (Chan.submit_ok h).2.2.2.2.2 with ⟨_, k, _⟩ | ⟨k, _, e, _⟩
  · simp [Chan.queued, k]
  · simp [Chan.queued, e, Option.isSome_iff_ne_none.2 k]

/-- What a sequence of two operations that may stop answers. -/
theorem except_bind_ok {α β : Type} {x : Except Stop α} {f : α → Except Stop β} {b : β} (h : x.bind f = .ok b) :
    ∃ a, x = .ok a ∧ f a = .ok b := by
  cases x with
  | error e => cases h
  | ok a => exact ⟨a, rfl, h⟩

/-- What an operation that may stop answers after a change of its result. -/
theorem except_map_ok {α β : Type} {x : Except Stop α} {f : α → β} {b : β} (h : x.map f = .ok b) :
    ∃ a, x = .ok a ∧ f a = b := by
  cases x with
  | error e => cases h
  | ok a => cases h; exact ⟨a, rfl, rfl⟩

/-- What a write of a count register can do: submit where it triggers, else only store. -/
theorem writeIdmaCount_cases {s t : State} {c : Fin 2} {v : Word} {x : Xfer} (h : s.writeIdmaCount c v x = .ok t) :
    (∃ y, Chan.submit { s.chan c with count := v } c x = .ok y ∧ t = s.spend.setChan c y) ∨
      t = s.spend.setChan c { s.chan c with count := v } := by
  unfold State.writeIdmaCount at h
  dsimp only at h
  split at h
  · obtain ⟨y, hy, rfl⟩ := except_map_ok h
    exact .inl ⟨y, hy, rfl⟩
  · cases h; exact .inr rfl

@[simp] theorem chan_spend (s : State) (c : Fin 2) : s.spend.chan c = s.chan c := rfl

theorem quiet_writeIdmaCount {s t : State} {c : Fin 2} {v : Word} {x : Xfer} (h : s.writeIdmaCount c v x = .ok t)
    (h0 : c = 0 → onlyBits idma0CountMask v = true) (h1 : c = 1 → onlyBits idma1CountMask v = true) : Quiet s t := by
  rcases writeIdmaCount_cases h with ⟨y, hy, rfl⟩ | rfl
  · obtain ⟨_, e2, e3, e4, _⟩ := Chan.submit_ok hy
    exact (quiet_spend s).trans
      (quiet_setChan s.spend c y e2 e3 (fun _ k => e4 ▸ h0 k) (fun _ k => e4 ▸ h1 k) fun _ => Chan.submit_queued hy)
  · refine (quiet_spend s).trans (quiet_setChan s.spend c _ rfl rfl (fun _ k => h0 k) (fun _ k => h1 k) fun i => ?_)
    unfold State.chan
    split_ifs
    · exact i.queue0
    · exact i.queue1

theorem quiet_moveWord {s t : State} {c : Fin 2} {x : Xfer} {a b : Nat} {g : Bool} (h : s.moveWord c x a b g = .ok t) :
    Quiet s t := by
  obtain ⟨r, hr, h⟩ := except_bind_ok h
  exact (quiet_memReadAs hr).trans (quiet_memWriteAs h)

theorem quiet_stepIdma0 {s t : State} {x : Xfer} (h : s.stepIdma0 x = .ok t) : Quiet s t := by
  unfold State.stepIdma0 at h
  dsimp only at h
  repeat' split at h
  all_goals first
    | cases h; exact (quiet_raise _ _ (by decide)).trans (quiet_promote _ 0)
    | cases h; exact quiet_setPos ..
    | cases h; exact quiet_completeIdma ..
    | exact (quiet_setPos ..).trans (quiet_moveWord h)
    | cases h

theorem quiet_stepIdma1 {s t : State} {x : Xfer} (h : s.stepIdma1 x = .ok t) : Quiet s t := by
  unfold State.stepIdma1 at h
  dsimp only at h
  repeat' split at h
  all_goals first
    | cases h; exact quiet_completeIdma ..
    | exact (quiet_setPos ..).trans (quiet_moveWord h)
    | exact (quiet_setPos ..).trans (quiet_memWriteAs h)
    | cases h

theorem quiet_stepIdma {s t : State} {c : Fin 2} (h : s.stepIdma c = .ok t) : Quiet s t := by
  unfold State.stepIdma at h
  split at h
  · cases h; exact Quiet.refl s
  · split_ifs at h
    · exact quiet_stepIdma0 h
    · exact quiet_stepIdma1 h

theorem quiet_sdmaNext {s : State} {b : Burst} {r : State × Option Burst} (h : s.sdmaNext b = .ok r) : Quiet s r.1 := by
  unfold State.sdmaNext at h
  split at h
  · obtain ⟨q, hq, rfl⟩ := except_map_ok h
    split
    · exact quiet_memReadAs hq
    · exact (quiet_memReadAs hq).trans (quiet_setReply _ _)
  · obtain ⟨q, hq, rfl⟩ := except_map_ok h
    exact quiet_memWriteAs hq

theorem quiet_sdmaStart {s t : State} {b : Burst} (h : s.sdmaStart b = .ok t) : Quiet s t := by
  obtain ⟨r, hr, rfl⟩ := except_map_ok h
  exact (quiet_sdmaNext hr).trans (quiet_setEmc _ _)

theorem quiet_sdmaRead {s t : State} {id : Nat} {p : Priv} {a n : Nat} (h : s.sdmaRead id p a n = .ok t) : Quiet s t := by
  unfold State.sdmaRead at h
  repeat' split at h
  · cases h
  · cases h; exact quiet_setReply _ _
  · exact quiet_sdmaStart h

theorem quiet_sdmaWrite {s t : State} {id : Nat} {p : Priv} {a : Nat} {bs : List Byte} (h : s.sdmaWrite id p a bs = .ok t) :
    Quiet s t := by
  unfold State.sdmaWrite at h
  repeat' split at h
  · cases h
  · cases h; exact Quiet.refl s
  · exact quiet_sdmaStart h

theorem quiet_sdmaMore {s t : State} {i : Nat} (h : s.sdmaMore i = .ok t) : Quiet s t := by
  unfold State.sdmaMore at h
  split at h
  · cases h; exact Quiet.refl s
  · obtain ⟨r, hr, rfl⟩ := except_map_ok h
    exact (quiet_sdmaNext hr).trans (quiet_setEmc _ _)

/-! ### Loads and stores -/

theorem quiet_loadNext {s t : State} {a n : Nat} {got : List Byte} (h : s.loadNext a n got = .ok t) : Quiet s t := by
  obtain ⟨r, hr, rfl⟩ := except_map_ok h
  exact (quiet_loadPiece hr).trans (Quiet.ite ((quiet_setRest _ _).trans (quiet_setReply _ _))
    ((quiet_setRest _ _).trans (quiet_setReply _ _)))

theorem quiet_loadBytes {s t : State} {a n : Nat} (h : s.loadBytes a n = .ok t) : Quiet s t := by
  unfold State.loadBytes at h
  split at h
  · cases h
  · exact quiet_loadNext h

theorem quiet_storeNext {s t : State} {a : Nat} {bs : List Byte} {m : Bool} (h : s.storeNext a bs m = .ok t) : Quiet s t := by
  obtain ⟨q, hq, rfl⟩ := except_map_ok h
  exact (quiet_storePiece hq).trans (quiet_setRest _ _)

theorem quiet_storeBytes {s t : State} {a : Nat} {bs : List Byte} (h : s.storeBytes a bs = .ok t) : Quiet s t := by
  unfold State.storeBytes at h
  split at h
  · cases h
  · exact quiet_storeNext h

theorem quiet_accessMore {s t : State} (h : s.accessMore = .ok t) : Quiet s t := by
  unfold State.accessMore at h
  split at h
  · cases h; exact Quiet.refl s
  · exact quiet_storeNext h
  · exact quiet_loadNext h

/-! ### Arbitration, power-down, sampling, reset -/

theorem keeps_setBwm (s : State) (x : Bwm) (h : s.Inv → (s.setBwm x).bwmReserved = true) : Keeps s (s.setBwm x) :=
  ⟨rfl, rfl, rfl, fun i => ⟨i.1, i.2, i.3, h i, i.5, i.6, i.7, i.8, i.9, i.10⟩⟩

theorem Bwm.setCount_eq (b : Bwm) (x : Resource) (c : Fin 4) (n : Nat) : ∃ v, b.setCount x c n = { b with cnt := v } := ⟨_, rfl⟩

theorem losers_eq (l : List (Fin 4)) (x : Resource) (b : Bwm) :
    ∃ v, l.foldl (fun b c => b.setCount x c (b.count x c + 1)) b = { b with cnt := v } := by
  induction l generalizing b with
  | nil => exact ⟨_, rfl⟩
  | cons c t ih =>
    obtain ⟨v, hv⟩ := ih (b.setCount x c (b.count x c + 1))
    exact ⟨v, hv⟩

/-- An arbitration cycle changes only the contention counters and the free-value stamp. -/
theorem arbitrate_eq (s : State) (x : Resource) (qs : List Request) :
    s.arbitrate x qs = s ∨ ∃ v, s.arbitrate x qs = (s.setBwm { s.bwm with cnt := v }).setFree (s.free + 4) := by
  unfold State.arbitrate
  split
  · exact .inl rfl
  · next w _ =>
    obtain ⟨v, hv⟩ := losers_eq (classes.filter fun c => c ≠ w.class && qs.any fun q => q.class = c) x s.bwm
    dsimp only
    rw [hv]
    exact .inr ⟨_, rfl⟩

theorem keeps_arbitrate (s : State) (x : Resource) (qs : List Request) : Keeps s (s.arbitrate x qs) := by
  rcases arbitrate_eq s x qs with h | ⟨v, h⟩ <;> rw [h]
  · exact Keeps.refl s
  · exact Keeps.trans (t := s.setBwm { s.bwm with cnt := v }) (keeps_setBwm s _ fun i => i.bwm) (quiet_setFree _ _).keeps

theorem quiet_setPower (s : State) (d : Bool) : Quiet s (s.setPower d) :=
  (quiet_setPdc s { s.pdc with mmAsleep := d } rfl).trans (quiet_setPdc _ _ (by rfl))

theorem quiet_setSploop (s : State) (b : Bool) : Quiet s (s.setSploop b) :=
  (quiet_setPdc s { s.pdc with sploop := b } rfl).trans (quiet_setAsleep _ _)

theorem quiet_enterIdle (s : State) : Quiet s s.enterIdle :=
  Quiet.ite ((quiet_setCpu s _ (by rfl)).trans (quiet_setPower _ _)) (quiet_setCpu s _ (by rfl))

theorem keeps_setIntc (s : State) (x : Intc) (hf : x.evtFlag = s.intc.evtFlag) (hm : x.evtMask = s.intc.evtMask)
    (he : x.expMask = s.intc.expMask) : Keeps s (s.setIntc x) :=
  ⟨rfl, rfl, rfl, fun i => ⟨i.1, i.2, by
    have hc := (State.combinedReserved_iff s).1 i.3
    exact (State.combinedReserved_iff _).2 (by simpa [hf, hm, he] using hc), i.4, i.5, i.6, i.7, i.8, i.9, i.10⟩⟩

theorem keeps_reportDrop (s : State) (k : Nat) : Keeps s (s.reportDrop k) := by
  unfold State.reportDrop
  refine Keeps.ite (Keeps.trans ?_ (quiet_raise _ 96 (by decide)).keeps) (Keeps.refl s)
  exact keeps_setIntc s _ rfl rfl rfl

theorem keeps_receiveInterrupt (s : State) (k : Nat) : Keeps s (s.receiveInterrupt k) :=
  Keeps.ite (keeps_reportDrop s k) (quiet_setCpu s _ (by rfl)).keeps

theorem quiet_receiveExcep (s : State) : Quiet s s.receiveExcep := Quiet.ite (quiet_setCpu s _ (by rfl)) (quiet_setCpu s _ (by rfl))

theorem quiet_wake (s : State) : Quiet s s.wake :=
  Quiet.ite ((quiet_setCpu s _ (by rfl)).trans (quiet_setPower _ _)) (Quiet.refl s)

theorem keeps_sample (s : State) : Keeps s s.sample := by
  unfold State.sample
  dsimp only
  refine Keeps.trans ?_ (quiet_wake _).keeps
  refine Keeps.trans ?_ (Keeps.foldl _ keeps_receiveInterrupt _ _)
  refine Keeps.trans ?_ (quiet_setCpu _ _ (by rfl)).keeps
  refine Keeps.trans ?_ (quiet_receiveExcep _).keeps
  exact keeps_setIntc s _ rfl rfl rfl

theorem resetOf_mppaReserved {p : Platform} (h : platLegal p = true) : (State.resetOf p).mppaReserved = true := by
  have k := h
  simp only [platLegal, l1Legal, l2Legal, Bool.and_eq_true] at k
  obtain ⟨⟨⟨⟨⟨⟨⟨-, k1⟩, -, k2⟩, ⟨⟨-, k3⟩, -⟩, -⟩, -⟩, -⟩, -⟩, -⟩ := k
  simp only [State.mppaReserved, Bool.and_eq_true]
  exact ⟨⟨⟨h, k1⟩, k2⟩, k3⟩

theorem State.Inv.platLegal {s : State} (h : s.Inv) : platLegal s.plat = true := by
  have k := h.2
  simp only [State.mppaReserved, Bool.and_eq_true] at k
  exact k.1.1.1

/-- A global reset keeps the platform, the agenda and the invariant. -/
theorem globalReset_keeps (s : State) :
    s.globalReset.plat = s.plat ∧ s.globalReset.agenda = s.agenda ∧ (s.Inv → s.globalReset.Inv) := by
  have h : ∀ e : Emc, s.Inv → (((((State.resetOf s.plat).setMem s.mem).setFree s.free).setAgenda s.agenda).setEmc e).Inv :=
    fun e i => ⟨i.mem, resetOf_mppaReserved i.platLegal, show State.reset.combinedReserved = true by decide,
      show State.reset.bwmReserved = true by decide, show State.reset.idmaReserved = true by decide, Nat.zero_le 4, rfl, rfl, rfl,
      fun x => by cases x <;> rfl⟩
  have k : ∀ (u : State) (a b c d : Span), Quiet u ((((u.forget a).forget b).forget c).forget d) := fun u a b c d =>
    (((quiet_forget u a).trans (quiet_forget _ b)).trans (quiet_forget _ c)).trans (quiet_forget _ d)
  exact ⟨(k _ _ _ _ _).plat, (k _ _ _ _ _).agenda, fun i => (k _ _ _ _ _).inv (h _ i)⟩

theorem keeps_localReset (s : State) : Keeps s s.localReset := by
  have h := (quiet_endDrain s).keeps
  unfold State.localReset
  generalize s.endDrain = u at h ⊢
  exact h.trans ⟨rfl, rfl, rfl, fun i => ⟨i.1, i.2, i.3, i.4, i.5, Nat.zero_le 4, rfl, rfl, rfl,
    fun x => by cases x <;> rfl⟩⟩

end Sys2Proof.Machine
end

