-- ==== Sys2Proof/Laws/Exec.lean ====
section
/-!
SUPPORT. Which meaning each instruction has: one lemma per constructor, so that no proof unfolds the dispatch.
-/
namespace Sys2Proof.Machine

variable (s : State)

@[simp] theorem exec_evtflagRead (n : Fin 4) : exec (.evtflagRead n) s = execEvtflagRead n s := rfl
@[simp] theorem exec_evtflagWrite (n : Fin 4) (v : Word) : exec (.evtflagWrite n v) s = execEvtflagWrite n v s := rfl
@[simp] theorem exec_evtsetRead (n : Fin 4) : exec (.evtsetRead n) s = execEvtsetRead n s := rfl
@[simp] theorem exec_evtsetWrite (n : Fin 4) (v : Word) : exec (.evtsetWrite n v) s = execEvtsetWrite n v s := rfl
@[simp] theorem exec_evtclrRead (n : Fin 4) : exec (.evtclrRead n) s = execEvtclrRead n s := rfl
@[simp] theorem exec_evtclrWrite (n : Fin 4) (v : Word) : exec (.evtclrWrite n v) s = execEvtclrWrite n v s := rfl
@[simp] theorem exec_evtmaskRead (n : Fin 4) : exec (.evtmaskRead n) s = execEvtmaskRead n s := rfl
@[simp] theorem exec_evtmaskWrite (n : Fin 4) (v : Word) : exec (.evtmaskWrite n v) s = execEvtmaskWrite n v s := rfl
@[simp] theorem exec_mevtflagRead (n : Fin 4) : exec (.mevtflagRead n) s = execMevtflagRead n s := rfl
@[simp] theorem exec_mevtflagWrite (n : Fin 4) (v : Word) : exec (.mevtflagWrite n v) s = execMevtflagWrite n v s := rfl
@[simp] theorem exec_expmaskRead (n : Fin 4) : exec (.expmaskRead n) s = execExpmaskRead n s := rfl
@[simp] theorem exec_expmaskWrite (n : Fin 4) (v : Word) : exec (.expmaskWrite n v) s = execExpmaskWrite n v s := rfl
@[simp] theorem exec_mexpflagRead (n : Fin 4) : exec (.mexpflagRead n) s = execMexpflagRead n s := rfl
@[simp] theorem exec_mexpflagWrite (n : Fin 4) (v : Word) : exec (.mexpflagWrite n v) s = execMexpflagWrite n v s := rfl
@[simp] theorem exec_intmuxRead (n : Fin 4) : exec (.intmuxRead n) s = execIntmuxRead n s := rfl
@[simp] theorem exec_intmuxWrite (n : Fin 4) (v : Word) : exec (.intmuxWrite n v) s = execIntmuxWrite n v s := rfl
@[simp] theorem exec_intxstatRead : exec .intxstatRead s = execIntxstatRead s := rfl
@[simp] theorem exec_intxstatWrite (v : Word) : exec (.intxstatWrite v) s = execIntxstatWrite v s := rfl
@[simp] theorem exec_intxclrRead : exec .intxclrRead s = execIntxclrRead s := rfl
@[simp] theorem exec_intxclrWrite (v : Word) : exec (.intxclrWrite v) s = execIntxclrWrite v s := rfl
@[simp] theorem exec_intdmaskRead : exec .intdmaskRead s = execIntdmaskRead s := rfl
@[simp] theorem exec_intdmaskWrite (v : Word) : exec (.intdmaskWrite v) s = execIntdmaskWrite v s := rfl
@[simp] theorem exec_aegmuxRead (n : Fin 2) : exec (.aegmuxRead n) s = execAegmuxRead n s := rfl
@[simp] theorem exec_aegmuxWrite (n : Fin 2) (v : Word) : exec (.aegmuxWrite n v) s = execAegmuxWrite n v s := rfl
@[simp] theorem exec_pdccmdRead : exec .pdccmdRead s = execPdccmdRead s := rfl
@[simp] theorem exec_pdccmdWrite (v : Word) : exec (.pdccmdWrite v) s = execPdccmdWrite v s := rfl
@[simp] theorem exec_mmRevidRead : exec .mmRevidRead s = execMmRevidRead s := rfl
@[simp] theorem exec_mmRevidWrite (v : Word) : exec (.mmRevidWrite v) s = execMmRevidWrite v s := rfl
@[simp] theorem exec_idma0StatRead : exec .idma0StatRead s = execIdma0StatRead s := rfl
@[simp] theorem exec_idma0StatWrite (v : Word) : exec (.idma0StatWrite v) s = execIdma0StatWrite v s := rfl
@[simp] theorem exec_idma1StatRead : exec .idma1StatRead s = execIdma1StatRead s := rfl
@[simp] theorem exec_idma1StatWrite (v : Word) : exec (.idma1StatWrite v) s = execIdma1StatWrite v s := rfl
@[simp] theorem exec_idma0MaskRead : exec .idma0MaskRead s = execIdma0MaskRead s := rfl
@[simp] theorem exec_idma0MaskWrite (v : Word) : exec (.idma0MaskWrite v) s = execIdma0MaskWrite v s := rfl
@[simp] theorem exec_idma0SourceRead : exec .idma0SourceRead s = execIdma0SourceRead s := rfl
@[simp] theorem exec_idma0SourceWrite (v : Word) : exec (.idma0SourceWrite v) s = execIdma0SourceWrite v s := rfl
@[simp] theorem exec_idma0DestRead : exec .idma0DestRead s = execIdma0DestRead s := rfl
@[simp] theorem exec_idma0DestWrite (v : Word) : exec (.idma0DestWrite v) s = execIdma0DestWrite v s := rfl
@[simp] theorem exec_idma0CountRead : exec .idma0CountRead s = execIdma0CountRead s := rfl
@[simp] theorem exec_idma0CountWrite (v : Word) : exec (.idma0CountWrite v) s = execIdma0CountWrite v s := rfl
@[simp] theorem exec_idma1SourceRead : exec .idma1SourceRead s = execIdma1SourceRead s := rfl
@[simp] theorem exec_idma1SourceWrite (v : Word) : exec (.idma1SourceWrite v) s = execIdma1SourceWrite v s := rfl
@[simp] theorem exec_idma1DestRead : exec .idma1DestRead s = execIdma1DestRead s := rfl
@[simp] theorem exec_idma1DestWrite (v : Word) : exec (.idma1DestWrite v) s = execIdma1DestWrite v s := rfl
@[simp] theorem exec_idma1CountRead : exec .idma1CountRead s = execIdma1CountRead s := rfl
@[simp] theorem exec_idma1CountWrite (v : Word) : exec (.idma1CountWrite v) s = execIdma1CountWrite v s := rfl
@[simp] theorem exec_cpuarbeRead : exec .cpuarbeRead s = execCpuarbeRead s := rfl
@[simp] theorem exec_cpuarbeWrite (v : Word) : exec (.cpuarbeWrite v) s = execCpuarbeWrite v s := rfl
@[simp] theorem exec_idmaarbeRead : exec .idmaarbeRead s = execIdmaarbeRead s := rfl
@[simp] theorem exec_idmaarbeWrite (v : Word) : exec (.idmaarbeWrite v) s = execIdmaarbeWrite v s := rfl
@[simp] theorem exec_sdmaarbeRead : exec .sdmaarbeRead s = execSdmaarbeRead s := rfl
@[simp] theorem exec_sdmaarbeWrite (v : Word) : exec (.sdmaarbeWrite v) s = execSdmaarbeWrite v s := rfl
@[simp] theorem exec_mdmaarbeRead : exec .mdmaarbeRead s = execMdmaarbeRead s := rfl
@[simp] theorem exec_mdmaarbeWrite (v : Word) : exec (.mdmaarbeWrite v) s = execMdmaarbeWrite v s := rfl
@[simp] theorem exec_cpuarbuRead : exec .cpuarbuRead s = execCpuarbuRead s := rfl
@[simp] theorem exec_cpuarbuWrite (v : Word) : exec (.cpuarbuWrite v) s = execCpuarbuWrite v s := rfl
@[simp] theorem exec_idmaarbuRead : exec .idmaarbuRead s = execIdmaarbuRead s := rfl
@[simp] theorem exec_idmaarbuWrite (v : Word) : exec (.idmaarbuWrite v) s = execIdmaarbuWrite v s := rfl
@[simp] theorem exec_sdmaarbuRead : exec .sdmaarbuRead s = execSdmaarbuRead s := rfl
@[simp] theorem exec_sdmaarbuWrite (v : Word) : exec (.sdmaarbuWrite v) s = execSdmaarbuWrite v s := rfl
@[simp] theorem exec_ucarbuRead : exec .ucarbuRead s = execUcarbuRead s := rfl
@[simp] theorem exec_ucarbuWrite (v : Word) : exec (.ucarbuWrite v) s = execUcarbuWrite v s := rfl
@[simp] theorem exec_cpuarbdRead : exec .cpuarbdRead s = execCpuarbdRead s := rfl
@[simp] theorem exec_cpuarbdWrite (v : Word) : exec (.cpuarbdWrite v) s = execCpuarbdWrite v s := rfl
@[simp] theorem exec_idmaarbdRead : exec .idmaarbdRead s = execIdmaarbdRead s := rfl
@[simp] theorem exec_idmaarbdWrite (v : Word) : exec (.idmaarbdWrite v) s = execIdmaarbdWrite v s := rfl
@[simp] theorem exec_sdmaarbdRead : exec .sdmaarbdRead s = execSdmaarbdRead s := rfl
@[simp] theorem exec_sdmaarbdWrite (v : Word) : exec (.sdmaarbdWrite v) s = execSdmaarbdWrite v s := rfl
@[simp] theorem exec_ucarbdRead : exec .ucarbdRead s = execUcarbdRead s := rfl
@[simp] theorem exec_ucarbdWrite (v : Word) : exec (.ucarbdWrite v) s = execUcarbdWrite v s := rfl
@[simp] theorem exec_buserrRead : exec .buserrRead s = execBuserrRead s := rfl
@[simp] theorem exec_buserrWrite (v : Word) : exec (.buserrWrite v) s = execBuserrWrite v s := rfl
@[simp] theorem exec_buserrclrRead : exec .buserrclrRead s = execBuserrclrRead s := rfl
@[simp] theorem exec_buserrclrWrite (v : Word) : exec (.buserrclrWrite v) s = execBuserrclrWrite v s := rfl
@[simp] theorem exec_l2cfgRead : exec .l2cfgRead s = execL2cfgRead s := rfl
@[simp] theorem exec_l2cfgWrite (v : Word) : exec (.l2cfgWrite v) s = execL2cfgWrite v s := rfl
@[simp] theorem exec_l1pcfgRead : exec .l1pcfgRead s = execL1pcfgRead s := rfl
@[simp] theorem exec_l1pcfgWrite (v : Word) : exec (.l1pcfgWrite v) s = execL1pcfgWrite v s := rfl
@[simp] theorem exec_l1pccRead : exec .l1pccRead s = execL1pccRead s := rfl
@[simp] theorem exec_l1pccWrite (v : Word) : exec (.l1pccWrite v) s = execL1pccWrite v s := rfl
@[simp] theorem exec_l1dcfgRead : exec .l1dcfgRead s = execL1dcfgRead s := rfl
@[simp] theorem exec_l1dcfgWrite (v : Word) : exec (.l1dcfgWrite v) s = execL1dcfgWrite v s := rfl
@[simp] theorem exec_l1dccRead : exec .l1dccRead s = execL1dccRead s := rfl
@[simp] theorem exec_l1dccWrite (v : Word) : exec (.l1dccWrite v) s = execL1dccWrite v s := rfl
@[simp] theorem exec_l2wbarRead : exec .l2wbarRead s = execL2wbarRead s := rfl
@[simp] theorem exec_l2wbarWrite (v : Word) : exec (.l2wbarWrite v) s = execL2wbarWrite v s := rfl
@[simp] theorem exec_l2wwcRead : exec .l2wwcRead s = execL2wwcRead s := rfl
@[simp] theorem exec_l2wwcWrite (v : Word) : exec (.l2wwcWrite v) s = execL2wwcWrite v s := rfl
@[simp] theorem exec_l2wibarRead : exec .l2wibarRead s = execL2wibarRead s := rfl
@[simp] theorem exec_l2wibarWrite (v : Word) : exec (.l2wibarWrite v) s = execL2wibarWrite v s := rfl
@[simp] theorem exec_l2wiwcRead : exec .l2wiwcRead s = execL2wiwcRead s := rfl
@[simp] theorem exec_l2wiwcWrite (v : Word) : exec (.l2wiwcWrite v) s = execL2wiwcWrite v s := rfl
@[simp] theorem exec_l2ibarRead : exec .l2ibarRead s = execL2ibarRead s := rfl
@[simp] theorem exec_l2ibarWrite (v : Word) : exec (.l2ibarWrite v) s = execL2ibarWrite v s := rfl
@[simp] theorem exec_l2iwcRead : exec .l2iwcRead s = execL2iwcRead s := rfl
@[simp] theorem exec_l2iwcWrite (v : Word) : exec (.l2iwcWrite v) s = execL2iwcWrite v s := rfl
@[simp] theorem exec_l1pibarRead : exec .l1pibarRead s = execL1pibarRead s := rfl
@[simp] theorem exec_l1pibarWrite (v : Word) : exec (.l1pibarWrite v) s = execL1pibarWrite v s := rfl
@[simp] theorem exec_l1piwcRead : exec .l1piwcRead s = execL1piwcRead s := rfl
@[simp] theorem exec_l1piwcWrite (v : Word) : exec (.l1piwcWrite v) s = execL1piwcWrite v s := rfl
@[simp] theorem exec_l1dwibarRead : exec .l1dwibarRead s = execL1dwibarRead s := rfl
@[simp] theorem exec_l1dwibarWrite (v : Word) : exec (.l1dwibarWrite v) s = execL1dwibarWrite v s := rfl
@[simp] theorem exec_l1dwiwcRead : exec .l1dwiwcRead s = execL1dwiwcRead s := rfl
@[simp] theorem exec_l1dwiwcWrite (v : Word) : exec (.l1dwiwcWrite v) s = execL1dwiwcWrite v s := rfl
@[simp] theorem exec_l1dwbarRead : exec .l1dwbarRead s = execL1dwbarRead s := rfl
@[simp] theorem exec_l1dwbarWrite (v : Word) : exec (.l1dwbarWrite v) s = execL1dwbarWrite v s := rfl
@[simp] theorem exec_l1dwwcRead : exec .l1dwwcRead s = execL1dwwcRead s := rfl
@[simp] theorem exec_l1dwwcWrite (v : Word) : exec (.l1dwwcWrite v) s = execL1dwwcWrite v s := rfl
@[simp] theorem exec_l1dibarRead : exec .l1dibarRead s = execL1dibarRead s := rfl
@[simp] theorem exec_l1dibarWrite (v : Word) : exec (.l1dibarWrite v) s = execL1dibarWrite v s := rfl
@[simp] theorem exec_l1diwcRead : exec .l1diwcRead s = execL1diwcRead s := rfl
@[simp] theorem exec_l1diwcWrite (v : Word) : exec (.l1diwcWrite v) s = execL1diwcWrite v s := rfl
@[simp] theorem exec_l2wbRead : exec .l2wbRead s = execL2wbRead s := rfl
@[simp] theorem exec_l2wbWrite (v : Word) : exec (.l2wbWrite v) s = execL2wbWrite v s := rfl
@[simp] theorem exec_l2wbinvRead : exec .l2wbinvRead s = execL2wbinvRead s := rfl
@[simp] theorem exec_l2wbinvWrite (v : Word) : exec (.l2wbinvWrite v) s = execL2wbinvWrite v s := rfl
@[simp] theorem exec_l2invRead : exec .l2invRead s = execL2invRead s := rfl
@[simp] theorem exec_l2invWrite (v : Word) : exec (.l2invWrite v) s = execL2invWrite v s := rfl
@[simp] theorem exec_l1pinvRead : exec .l1pinvRead s = execL1pinvRead s := rfl
@[simp] theorem exec_l1pinvWrite (v : Word) : exec (.l1pinvWrite v) s = execL1pinvWrite v s := rfl
@[simp] theorem exec_l1dwbRead : exec .l1dwbRead s = execL1dwbRead s := rfl
@[simp] theorem exec_l1dwbWrite (v : Word) : exec (.l1dwbWrite v) s = execL1dwbWrite v s := rfl
@[simp] theorem exec_l1dwbinvRead : exec .l1dwbinvRead s = execL1dwbinvRead s := rfl
@[simp] theorem exec_l1dwbinvWrite (v : Word) : exec (.l1dwbinvWrite v) s = execL1dwbinvWrite v s := rfl
@[simp] theorem exec_l1dinvRead : exec .l1dinvRead s = execL1dinvRead s := rfl
@[simp] theorem exec_l1dinvWrite (v : Word) : exec (.l1dinvWrite v) s = execL1dinvWrite v s := rfl
@[simp] theorem exec_marRead (n : Fin 256) : exec (.marRead n) s = execMarRead n s := rfl
@[simp] theorem exec_marWrite (n : Fin 256) (v : Word) : exec (.marWrite n v) s = execMarWrite n v s := rfl
@[simp] theorem exec_l2mpfarRead : exec .l2mpfarRead s = execL2mpfarRead s := rfl
@[simp] theorem exec_l2mpfarWrite (v : Word) : exec (.l2mpfarWrite v) s = execL2mpfarWrite v s := rfl
@[simp] theorem exec_l2mpfsrRead : exec .l2mpfsrRead s = execL2mpfsrRead s := rfl
@[simp] theorem exec_l2mpfsrWrite (v : Word) : exec (.l2mpfsrWrite v) s = execL2mpfsrWrite v s := rfl
@[simp] theorem exec_l2mpfcrRead : exec .l2mpfcrRead s = execL2mpfcrRead s := rfl
@[simp] theorem exec_l2mpfcrWrite (v : Word) : exec (.l2mpfcrWrite v) s = execL2mpfcrWrite v s := rfl
@[simp] theorem exec_l2mplkRead (n : Fin 4) : exec (.l2mplkRead n) s = execL2mplkRead n s := rfl
@[simp] theorem exec_l2mplkWrite (n : Fin 4) (v : Word) : exec (.l2mplkWrite n v) s = execL2mplkWrite n v s := rfl
@[simp] theorem exec_l2mplkcmdRead : exec .l2mplkcmdRead s = execL2mplkcmdRead s := rfl
@[simp] theorem exec_l2mplkcmdWrite (v : Word) : exec (.l2mplkcmdWrite v) s = execL2mplkcmdWrite v s := rfl
@[simp] theorem exec_l2mplkstatRead : exec .l2mplkstatRead s = execL2mplkstatRead s := rfl
@[simp] theorem exec_l2mplkstatWrite (v : Word) : exec (.l2mplkstatWrite v) s = execL2mplkstatWrite v s := rfl
@[simp] theorem exec_l1pmpfarRead : exec .l1pmpfarRead s = execL1pmpfarRead s := rfl
@[simp] theorem exec_l1pmpfarWrite (v : Word) : exec (.l1pmpfarWrite v) s = execL1pmpfarWrite v s := rfl
@[simp] theorem exec_l1pmpfsrRead : exec .l1pmpfsrRead s = execL1pmpfsrRead s := rfl
@[simp] theorem exec_l1pmpfsrWrite (v : Word) : exec (.l1pmpfsrWrite v) s = execL1pmpfsrWrite v s := rfl
@[simp] theorem exec_l1pmpfcrRead : exec .l1pmpfcrRead s = execL1pmpfcrRead s := rfl
@[simp] theorem exec_l1pmpfcrWrite (v : Word) : exec (.l1pmpfcrWrite v) s = execL1pmpfcrWrite v s := rfl
@[simp] theorem exec_l1pmplkRead (n : Fin 4) : exec (.l1pmplkRead n) s = execL1pmplkRead n s := rfl
@[simp] theorem exec_l1pmplkWrite (n : Fin 4) (v : Word) : exec (.l1pmplkWrite n v) s = execL1pmplkWrite n v s := rfl
@[simp] theorem exec_l1pmplkcmdRead : exec .l1pmplkcmdRead s = execL1pmplkcmdRead s := rfl
@[simp] theorem exec_l1pmplkcmdWrite (v : Word) : exec (.l1pmplkcmdWrite v) s = execL1pmplkcmdWrite v s := rfl
@[simp] theorem exec_l1pmplkstatRead : exec .l1pmplkstatRead s = execL1pmplkstatRead s := rfl
@[simp] theorem exec_l1pmplkstatWrite (v : Word) : exec (.l1pmplkstatWrite v) s = execL1pmplkstatWrite v s := rfl
@[simp] theorem exec_l1dmpfarRead : exec .l1dmpfarRead s = execL1dmpfarRead s := rfl
@[simp] theorem exec_l1dmpfarWrite (v : Word) : exec (.l1dmpfarWrite v) s = execL1dmpfarWrite v s := rfl
@[simp] theorem exec_l1dmpfsrRead : exec .l1dmpfsrRead s = execL1dmpfsrRead s := rfl
@[simp] theorem exec_l1dmpfsrWrite (v : Word) : exec (.l1dmpfsrWrite v) s = execL1dmpfsrWrite v s := rfl
@[simp] theorem exec_l1dmpfcrRead : exec .l1dmpfcrRead s = execL1dmpfcrRead s := rfl
@[simp] theorem exec_l1dmpfcrWrite (v : Word) : exec (.l1dmpfcrWrite v) s = execL1dmpfcrWrite v s := rfl
@[simp] theorem exec_l1dmplkRead (n : Fin 4) : exec (.l1dmplkRead n) s = execL1dmplkRead n s := rfl
@[simp] theorem exec_l1dmplkWrite (n : Fin 4) (v : Word) : exec (.l1dmplkWrite n v) s = execL1dmplkWrite n v s := rfl
@[simp] theorem exec_l1dmplkcmdRead : exec .l1dmplkcmdRead s = execL1dmplkcmdRead s := rfl
@[simp] theorem exec_l1dmplkcmdWrite (v : Word) : exec (.l1dmplkcmdWrite v) s = execL1dmplkcmdWrite v s := rfl
@[simp] theorem exec_l1dmplkstatRead : exec .l1dmplkstatRead s = execL1dmplkstatRead s := rfl
@[simp] theorem exec_l1dmplkstatWrite (v : Word) : exec (.l1dmplkstatWrite v) s = execL1dmplkstatWrite v s := rfl
@[simp] theorem exec_l2mppaRead (n : Fin 64) : exec (.l2mppaRead n) s = execL2mppaRead n s := rfl
@[simp] theorem exec_l2mppaWrite (n : Fin 64) (v : Word) : exec (.l2mppaWrite n v) s = execL2mppaWrite n v s := rfl
@[simp] theorem exec_l1pmppaRead (n : Fin 32) : exec (.l1pmppaRead n) s = execL1pmppaRead n s := rfl
@[simp] theorem exec_l1pmppaWrite (n : Fin 32) (v : Word) : exec (.l1pmppaWrite n v) s = execL1pmppaWrite n v s := rfl
@[simp] theorem exec_l1dmppaRead (n : Fin 32) : exec (.l1dmppaRead n) s = execL1dmppaRead n s := rfl
@[simp] theorem exec_l1dmppaWrite (n : Fin 32) (v : Word) : exec (.l1dmppaWrite n v) s = execL1dmppaWrite n v s := rfl
@[simp] theorem exec_l2pdwakeRead (n : Fin 2) : exec (.l2pdwakeRead n) s = execL2pdwakeRead n s := rfl
@[simp] theorem exec_l2pdwakeWrite (n : Fin 2) (v : Word) : exec (.l2pdwakeWrite n v) s = execL2pdwakeWrite n v s := rfl
@[simp] theorem exec_l2pdsleepRead (n : Fin 2) : exec (.l2pdsleepRead n) s = execL2pdsleepRead n s := rfl
@[simp] theorem exec_l2pdsleepWrite (n : Fin 2) (v : Word) : exec (.l2pdsleepWrite n v) s = execL2pdsleepWrite n v s := rfl
@[simp] theorem exec_l2pdstatRead (n : Fin 2) : exec (.l2pdstatRead n) s = execL2pdstatRead n s := rfl
@[simp] theorem exec_l2pdstatWrite (n : Fin 2) (v : Word) : exec (.l2pdstatWrite n v) s = execL2pdstatWrite n v s := rfl

end Sys2Proof.Machine
end

