-- ==== Sys2Proof/Laws/Ops.lean ====
section
/-!
SUPPORT. What the shared operations do: one lemma for each that the proofs cite instead of unfolding it.
-/
namespace Sys2Proof.Machine

/-- A supervisor-only write that the privilege check allows has its effect. -/
theorem supervisorWrite_allowed (s : State) (o : Owner) (a : Nat) (f : State → State) (h : s.mayWrite = true) :
    s.supervisorWrite o a f = (f s).done := by unfold State.supervisorWrite; rw [if_pos h]

/-- One that fails the check is refused with the fault of the register's owner. -/
theorem supervisorWrite_denied (s : State) (o : Owner) (a : Nat) (f : State → State) (h : s.mayWrite = false) :
    s.supervisorWrite o a f = (s.registerPermissionFault o a).done := by unfold State.supervisorWrite; rw [h]; rfl

/-- The privilege check fails for user code on a device with memory protection, and for nothing else. -/
theorem mayWrite_iff (s : State) : s.mayWrite = false ↔ s.plat.hasMp = true ∧ s.cpu.priv = .user := by
  unfold State.mayWrite; cases s.plat.hasMp <;> cases s.cpu.priv <;> simp

theorem mayWrite_supervisor (s : State) (h : s.cpu.priv = .supervisor) : s.mayWrite = true := by
  simp [State.mayWrite, h]

theorem mem_eventsOf (n : Fin 4) (m : Word) (e : Nat) : e ∈ eventsOf n m ↔ e / 32 = n.val ∧ m.getLsbD (e % 32) = true := by
  simp [eventsOf, bit]
  constructor
  · rintro ⟨i, ⟨hi, hm⟩, rfl⟩
    exact ⟨by omega, by rwa [show (32 * n.val + i) % 32 = i by omega]⟩
  · rintro ⟨h1, h2⟩
    exact ⟨e % 32, ⟨by omega, h2⟩, by omega⟩

/-- The winner is a pending request of the lowest effective priority. -/
theorem winner_spec (s : State) (x : Resource) (qs : List Request) :
    (qs = [] ∧ s.winner x qs = none) ∨ ∃ w ∈ qs, s.winner x qs = some w ∧ ∀ q ∈ qs,
        s.effectivePriority x w ≤ s.effectivePriority x q := by
  induction qs with
  | nil => exact .inl ⟨rfl, rfl⟩
  | cons q t ih =>
    right
    rcases ih with ⟨rfl, h⟩ | ⟨w, hw, h, hall⟩
    · exact ⟨q, by simp, by simp [State.winner], by simp⟩
    · by_cases hc : s.effectivePriority x q ≤ s.effectivePriority x w
      · refine ⟨q, by simp, by simp [State.winner, h, hc], ?_⟩
        intro r hr
        rcases List.mem_cons.1 hr with rfl | hr
        · exact le_refl _
        · exact hc.trans (hall r hr)
      · refine ⟨w, by simp [hw], by simp [State.winner, h, hc], ?_⟩
        intro r hr
        rcases List.mem_cons.1 hr with rfl | hr
        · omega
        · exact hall r hr

theorem count_set (b : Bwm) (x y : Resource) (c d : Fin 4) (n : Nat) :
    (b.setCount x c n).count y d = if y = x ∧ d = c then n else b.count y d := by
  unfold Bwm.setCount Bwm.count cntIndex
  dsimp only
  have h1 := x.index.isLt; have h2 := y.index.isLt
  have hx : x.index = y.index → x = y := by cases x <;> cases y <;> simp [Resource.index]
  simp only [Vector.getElem?_setIfInBounds]
  by_cases h : y = x ∧ d = c
  · obtain ⟨rfl, rfl⟩ := h
    have : 4 * y.index.val + d.val < 16 := by omega
    simp [this]
  · rw [if_neg h, if_neg]
    intro he
    apply h
    have a1 : x.index.val = y.index.val := by omega
    have a2 : c.val = d.val := by omega
    exact ⟨(hx (Fin.ext a1)).symm, (Fin.ext a2).symm⟩

theorem count_losers (x : Resource) (l : List (Fin 4)) (hl : l.Nodup) (b : Bwm) (y : Resource) (c : Fin 4) :
    (l.foldl (fun b c => b.setCount x c (b.count x c + 1)) b).count y c = if y = x ∧
        c ∈ l then b.count y c + 1 else b.count y c := by
  induction l generalizing b with
  | nil => simp
  | cons d t ih =>
    rw [List.nodup_cons] at hl
    rw [List.foldl_cons, ih hl.2]
    simp only [count_set, List.mem_cons]
    by_cases hy : y = x
    · subst hy
      by_cases hd : c = d
      · subst hd; simp [hl.1]
      · simp [hd]
    · simp [hy]

theorem lookup_cons_if (q : Host.Cell) (t : List Host.Cell) (a : Nat) :
    (q :: t).lookup a = if a = q.1 then some q.2 else t.lookup a := by
  obtain ⟨k, b⟩ := q
  by_cases h : a = k
  · subst h; simp [List.lookup]
  · have : (a == k) = false := by simpa using h
    simp only [List.lookup, this, if_neg h]

theorem lookup_filter (f : Nat → Bool) (l : List Host.Cell) (a : Nat) :
    (l.filter fun p => f p.1).lookup a = if f a then l.lookup a else none := by
  induction l with
  | nil => simp
  | cons q t ih =>
    rw [List.filter_cons]
    by_cases hq : a = q.1
    · subst hq
      by_cases hf : f q.1
      · simp [hf, lookup_cons_if]
      · simp [hf, ih]
    · by_cases hf : f q.1
      · simp only [hf, if_true, lookup_cons_if, if_neg hq, ih]
      · simp [hf, lookup_cons_if, hq, ih]

/-- What a byte reads as after a range has lost its contents. -/
theorem forget_read (s : State) (r : Span) (a : Nat) :
    (s.forget r).mem.read a = if r.has a && !s.plat.isRom a then Config.freeByte s.free a else s.mem.read a := by
  unfold State.forget
  have hrom : Span.anyHas (platRoms s.plat) a = s.plat.isRom a := by
    simp [Span.anyHas, platRoms, Platform.isRom, Bool.or_assoc]
  by_cases h0 : r.size = 0
  · rw [if_pos h0]
    have : r.has a = false := by simp [Span.has, h0]
    simp [this]
  · rw [if_neg h0]
    show (Memory.read (s.mem.forget ⟨r, platRoms s.plat, s.free⟩) a) = _
    have key : (⟨r, platRoms s.plat, s.free⟩ : Lost).has a = (r.has a && !s.plat.isRom a) := by simp [Lost.has, hrom]
    rw [← key]
    unfold Memory.read
    have hf : (s.mem.forget ⟨r, platRoms s.plat, s.free⟩).cells.lookup a = _ :=
      lookup_filter (fun b => !(⟨r, platRoms s.plat, s.free⟩ : Lost).has b) s.mem.cells a
    rw [hf]
    cases hl : (⟨r, platRoms s.plat, s.free⟩ : Lost).has a
    · simp [Memory.unlisted_forget s.mem ⟨r, platRoms s.plat, s.free⟩ a hl]
    · simp [Memory.forget, Memory.unlisted, hl]

theorem larger_eq (a b : Nat) : largerSize a b = max a b := by unfold largerSize; split <;> omega

theorem flush_clean (ls : List Line) (s : State) (h : ∀ l ∈ ls, l.dirty = false) :
    ls.foldl (fun t l => t.treatL1d .wbinv l) s = { s with l1d := { s.l1d with lines :=
        (ls.foldl (fun t l => t.treatL1d .wbinv l) s).l1d.lines } } := by
  induction ls generalizing s with
  | nil => rfl
  | cons l t ih =>
    have hl : l.dirty = false := h l (by simp)
    rw [List.foldl_cons, ih _ fun m hm => h m (by simp [hm])]
    simp [State.treatL1d, State.l1dLineOp, hl, State.setL1d]

theorem l1dLineOp_l1d (s : State) (c : CohAction) (l : Line) : ∃ ls, (s.l1dLineOp c l).l1d = { s.l1d with lines := ls } := by
  unfold State.l1dLineOp
  dsimp only
  split
  · exact ⟨_, rfl⟩
  · split
    · rw [l2WriteVictim_l1d]; exact ⟨_, rfl⟩
    · exact ⟨_, rfl⟩
  · split
    · rw [l2WriteVictim_l1d]; exact ⟨_, rfl⟩
    · exact ⟨_, rfl⟩

theorem drainVictim_of_none {s : State} (h : s.l1d.victim = none) : s.drainVictim = s := by unfold State.drainVictim; rw [h]

/-- The treatment of an L1D line changes its lines, and sends a victim on its way before a written back line. -/
theorem treatL1d_l1d (s : State) (c : CohAction) (l : Line) : ∃ ls v, (s.treatL1d c l).l1d = { s.l1d with lines := ls, victim := v } ∧
    (v = s.l1d.victim ∨ v = none) := by
  unfold State.treatL1d
  split
  · obtain ⟨ls, h⟩ := l1dLineOp_l1d s.drainVictim c l
    exact ⟨ls, none, by rw [h, drainVictim_l1d], .inr rfl⟩
  · obtain ⟨ls, h⟩ := l1dLineOp_l1d s c l
    exact ⟨ls, s.l1d.victim, by rw [h], .inl rfl⟩

theorem flush_l1d (ls : List Line) (s : State) (h : s.l1d.victim = none) :
    ∃ k, (ls.foldl (fun t l => t.treatL1d .wbinv l) s).l1d = { s.l1d with lines := k } := by
  induction ls generalizing s with
  | nil => exact ⟨_, rfl⟩
  | cons l t ih =>
    rw [List.foldl_cons]
    obtain ⟨j, v, hj, hv⟩ := treatL1d_l1d s .wbinv l
    rw [h, or_self] at hv
    subst hv
    obtain ⟨k, hk⟩ := ih (s.treatL1d .wbinv l) (by rw [hj])
    exact ⟨k, by rw [hk, hj, ← h]⟩

@[simp] theorem forget_l1d (s : State) (r : Span) : (s.forget r).l1d = s.l1d := by unfold State.forget; split <;> rfl

/-- What a move on the L2 side may change of the caches: the lines, the replacement order, the sleep bits and the evicted
line of L2, with no frame of L2 that was not valid before. -/
structure L2Move (s t : State) : Prop where
  plat : t.plat = s.plat
  l1p : t.l1p = s.l1p
  l1d : t.l1d = s.l1d
  cpu : t.cpu = s.cpu
  pdc : t.pdc = s.pdc
  l2 : ∃ ls lru sl o, t.l2 = { s.l2 with lines := ls, lru := lru, sleep := sl, out := o }
  frames : ∀ l ∈ t.l2.lines, ∃ k ∈ s.l2.lines, k.set = l.set ∧ k.way = l.way

theorem L2Move.refl (s : State) : L2Move s s := ⟨rfl, rfl, rfl, rfl, rfl, ⟨_, _, _, _, rfl⟩, fun l h => ⟨l, h, rfl, rfl⟩⟩

theorem L2Move.trans {s t u : State} (h : L2Move s t) (k : L2Move t u) : L2Move s u := by
  obtain ⟨a, b, c, d, e⟩ := h.l2
  obtain ⟨a', b', c', d', e'⟩ := k.l2
  refine ⟨k.plat.trans h.plat, k.l1p.trans h.l1p, k.l1d.trans h.l1d, k.cpu.trans h.cpu, k.pdc.trans h.pdc, ⟨a', b', c', d', by rw [e', e]⟩, ?_⟩
  intro l hl
  obtain ⟨m, hm, h1, h2⟩ := k.frames l hl
  obtain ⟨n, hn, h3, h4⟩ := h.frames m hm
  exact ⟨n, hn, h3.trans h1, h4.trans h2⟩

theorem L2Move.of_eq {s t : State} (hp : t.plat = s.plat) (h1 : t.l1p = s.l1p) (h2 : t.l1d = s.l1d) (h3 : t.cpu =
    s.cpu) (hd : t.pdc = s.pdc) (h4 : t.l2 = s.l2) : L2Move s t :=
  ⟨hp, h1, h2, h3, hd, ⟨_, _, _, _, h4⟩, fun l h => ⟨l, by rwa [h4] at h, rfl, rfl⟩⟩

theorem L2Move.setL1d {s t : State} (h : L2Move s t) (x : L1d) : L2Move (s.setL1d x) (t.setL1d x) :=
  ⟨h.plat, h.l1p, rfl, h.cpu, h.pdc, h.l2, h.frames⟩

theorem l2m_setEmc (s : State) (x : Emc) : L2Move s (s.setEmc x) := .of_eq rfl rfl rfl rfl rfl rfl

theorem l2m_raise (s : State) (e : Nat) : L2Move s (s.raise e) := .of_eq rfl rfl rfl rfl rfl rfl

theorem l2m_busError (s : State) (op : BusOp) (x : BitVec 4) (t : BitVec 3) : L2Move s (s.busError op x t) := by
  unfold State.busError; split_ifs
  · exact (l2m_setEmc s _).trans (l2m_raise _ 127)
  · exact .refl _

theorem l2m_transact (s : State) (op : BusOp) (a n : Nat) (p : Priv) (id : Nat) : L2Move s (s.transact op a n p id).1 := by
  unfold State.transact
  dsimp only
  split
  · exact l2m_setEmc s _
  · exact l2m_setEmc s _
  · exact (l2m_setEmc s _).trans (l2m_busError _ _ _ _)

theorem l2m_spend (s : State) : L2Move s s.spend := .of_eq rfl rfl rfl rfl rfl rfl

theorem l2m_extPut (s : State) (a bs) : L2Move s (s.extPut a bs) := .of_eq rfl rfl rfl rfl rfl rfl

theorem l2m_busWrite (s : State) (op f n a bs p id) : L2Move s (s.busWrite op f n a bs p id) := by
  unfold State.busWrite
  dsimp only
  split
  · exact (l2m_transact ..).trans (l2m_extPut ..)
  · split
    · exact ((l2m_transact ..).trans (l2m_spend _)).trans (l2m_extPut ..)
    · exact (l2m_transact ..).trans (.of_eq rfl rfl rfl rfl rfl rfl)

theorem l2m_extWriteLine (s : State) (v) : L2Move s (s.extWriteLine v) := l2m_busWrite ..

theorem l2m_finishOut (s : State) : L2Move s s.finishOut := by
  unfold State.finishOut
  split
  · exact .refl _
  · exact L2Move.trans (t := s.setL2 { s.l2 with out := none })
      ⟨rfl, rfl, rfl, rfl, rfl, ⟨_, _, _, _, rfl⟩, fun l h => ⟨l, h, rfl, rfl⟩⟩ (l2m_extWriteLine ..)

theorem l2m_wakePages (s : State) (a) : L2Move s (s.wakePages a) :=
  ⟨rfl, rfl, rfl, rfl, rfl, ⟨_, _, _, _, rfl⟩, fun l h => ⟨l, h, rfl, rfl⟩⟩

theorem l2m_putBytes (s : State) (a bs) : L2Move s (s.putBytes a bs) := .of_eq rfl rfl rfl rfl rfl rfl

theorem findLine_mem {ls : List Line} {a b : Nat} {l : Line} (h : findLine ls a b = some l) : l ∈ ls :=
    List.mem_of_find?_eq_some h

theorem l2Lookup_mem {s : State} {a : Nat} {l : Line} (h : s.l2Lookup a = some l) : l ∈ s.l2.lines := by
  unfold State.l2Lookup at h; split at h
  · cases h
  · exact findLine_mem h

theorem mem_dropLine {ls : List Line} {a b : Nat} {l : Line} : l ∈ dropLine ls a b ↔ l ∈ ls ∧ ¬(l.set = a ∧ l.way = b) := by
  simp only [dropLine, List.mem_filter, Bool.not_eq_true', Bool.and_eq_false_iff, decide_eq_false_iff_not, not_and_or]

theorem l2m_l2Merge (s : State) (l : Line) (o bs) (h : l ∈ s.l2.lines) : L2Move s (s.l2Merge l o bs) :=
  ⟨rfl, rfl, rfl, rfl, rfl, ⟨_, _, _, _, rfl⟩, fun m hm => by
    rcases List.mem_cons.1 (show m ∈ putLine _ _ from hm) with rfl | hm
    · exact ⟨l, h, rfl, rfl⟩
    · exact ⟨m, (mem_dropLine.1 hm).1, rfl, rfl⟩⟩

theorem l2m_l2Take (s : State) (v ext) (he : ∀ t, L2Move t (ext t)) : L2Move s (s.l2Take v ext) := by
  unfold State.l2Take
  split
  · exact (l2m_wakePages ..).trans (.of_eq rfl rfl rfl rfl rfl rfl)
  · split
    · exact .refl _
    · split
      · next h => exact l2m_l2Merge _ _ _ _ (l2Lookup_mem h)
      · exact (l2m_finishOut s).trans (he _)

theorem l2m_l2WriteVictim (s : State) (v) : L2Move s (s.l2WriteVictim v) := l2m_l2Take _ _ _ fun _ => l2m_extWriteLine ..

theorem l2m_drainVictim (s : State) : L2Move (s.setL1d { s.l1d with victim := none }) s.drainVictim := by
  unfold State.drainVictim
  split
  · next h =>
    refine .of_eq rfl rfl ?_ rfl rfl rfl
    exact congrArg (fun v => { s.l1d with victim := v }) h
  · exact l2m_l2WriteVictim _ _

/-- A victim on its way keeps the platform and the power-down state. -/
theorem drainVictim_power (s : State) : s.drainVictim.plat = s.plat ∧ s.drainVictim.pdc = s.pdc :=
  ⟨(l2m_drainVictim s).plat, (l2m_drainVictim s).pdc⟩

theorem l1dLineOp_power (s : State) (c : CohAction) (l : Line) :
    (s.l1dLineOp c l).plat = s.plat ∧ (s.l1dLineOp c l).pdc = s.pdc ∧ (s.l1dLineOp c l).l1p = s.l1p := by
  have key : ∀ (t : State) (v : Victim), t.plat = s.plat → t.pdc = s.pdc → t.l1p = s.l1p →
      (t.l2WriteVictim v).plat = s.plat ∧ (t.l2WriteVictim v).pdc = s.pdc ∧ (t.l2WriteVictim v).l1p = s.l1p :=
    fun t v h1 h2 h3 => have m := l2m_l2WriteVictim t v; ⟨m.plat.trans h1, m.pdc.trans h2, m.l1p.trans h3⟩
  unfold State.l1dLineOp
  dsimp only
  split
  · exact ⟨rfl, rfl, rfl⟩
  · split
    · exact key _ _ rfl rfl rfl
    · exact ⟨rfl, rfl, rfl⟩
  · split
    · exact key _ _ rfl rfl rfl
    · exact ⟨rfl, rfl, rfl⟩

theorem treatL1d_power (s : State) (c : CohAction) (l : Line) :
    (s.treatL1d c l).plat = s.plat ∧ (s.treatL1d c l).pdc = s.pdc ∧ (s.treatL1d c l).l1p = s.l1p := by
  have k := fun t : State => l1dLineOp_power t c l
  unfold State.treatL1d
  split
  · have m := l2m_drainVictim s
    exact ⟨(k _).1.trans m.plat, (k _).2.1.trans m.pdc, (k _).2.2.trans m.l1p⟩
  · exact k s

/-- A line that leaves L1D by an invalidate or a write back with invalidate, and what that moves in L2. -/
theorem l2m_l1dLineOp (s : State) (c : CohAction) (l : Line) (h : c ≠ .wb) :
    L2Move (s.setL1d { s.l1d with lines := dropLine s.l1d.lines l.set l.way }) (s.l1dLineOp c l) := by
  unfold State.l1dLineOp
  dsimp only
  split
  · exact .refl _
  · next e => exact absurd rfl h
  · split
    · exact l2m_l2WriteVictim _ _
    · exact .refl _

theorem l2m_treatL1d (s : State) (c : CohAction) (l : Line) (h : c ≠ .wb) :
    ∃ v, L2Move (s.setL1d { s.l1d with lines := dropLine s.l1d.lines l.set l.way, victim := v }) (s.treatL1d c l) := by
  unfold State.treatL1d
  split
  · have k := l2m_l1dLineOp s.drainVictim c l h
    rw [drainVictim_l1d] at k
    exact ⟨none, ((l2m_drainVictim s).setL1d _).trans k⟩
  · exact ⟨s.l1d.victim, l2m_l1dLineOp s c l h⟩

theorem treatL2_power (s : State) (c : CohAction) (l : Line) :
    (s.treatL2 c l).plat = s.plat ∧ (s.treatL2 c l).pdc = s.pdc := by
  have key : ∀ (t : State) (v), t.plat = s.plat → t.pdc = s.pdc →
      (t.finishOut.extWriteLine v).plat = s.plat ∧ (t.finishOut.extWriteLine v).pdc = s.pdc :=
    fun t v h1 h2 => have m := (l2m_finishOut t).trans (l2m_extWriteLine _ v); ⟨m.plat.trans h1, m.pdc.trans h2⟩
  unfold State.treatL2
  dsimp only
  split
  · exact ⟨rfl, rfl⟩
  · split
    · exact key _ _ rfl rfl
    · exact ⟨rfl, rfl⟩
  · split
    · exact key _ _ rfl rfl
    · exact ⟨rfl, rfl⟩

/-- Lines that leave a cache one after the other keep the platform and the power-down state. -/
theorem foldl_power (f : State → Line → State) (hf : ∀ s l, (f s l).plat = s.plat ∧ (f s l).pdc = s.pdc) (ls : List Line)
    (s : State) : (ls.foldl f s).plat = s.plat ∧ (ls.foldl f s).pdc = s.pdc := by
  induction ls generalizing s with
  | nil => exact ⟨rfl, rfl⟩
  | cons l t ih => exact ⟨(ih _).1.trans (hf s l).1, (ih _).2.trans (hf s l).2⟩

theorem treatL2_frame (s : State) (c l) : s.plat = (s.treatL2 c l).plat ∧ (s.treatL2 c l).l1p = s.l1p ∧
    (s.treatL2 c l).l1d = s.l1d ∧ (s.treatL2 c l).cpu = s.cpu ∧ (s.treatL2 c l).l2.op = s.l2.op ∧
    (s.treatL2 c l).l2.mode = s.l2.mode ∧ (s.treatL2 c l).l2.cc = s.l2.cc := by
  have key : ∀ (t : State) (v), t.plat = s.plat → t.l1p = s.l1p → t.l1d = s.l1d → t.cpu = s.cpu → t.l2.op = s.l2.op →
      t.l2.mode = s.l2.mode → t.l2.cc = s.l2.cc → let u := t.finishOut.extWriteLine v
    s.plat = u.plat ∧ u.l1p = s.l1p ∧ u.l1d = s.l1d ∧ u.cpu = s.cpu ∧ u.l2.op = s.l2.op ∧ u.l2.mode = s.l2.mode ∧
      u.l2.cc = s.l2.cc := by
    intro t v h0 h1 h2 h3 h4 h5 h6
    have m := (l2m_finishOut t).trans (l2m_extWriteLine _ v)
    obtain ⟨x, y, z, w, e⟩ := m.l2
    exact ⟨(m.plat.trans h0).symm, m.l1p.trans h1, m.l1d.trans h2, m.cpu.trans h3, by rw [e]; exact h4,
        by rw [e]; exact h5, by rw [e]; exact h6⟩
  unfold State.treatL2
  dsimp only
  split
  · exact ⟨rfl, rfl, rfl, rfl, rfl, rfl, rfl⟩
  · split
    · exact key _ _ rfl rfl rfl rfl rfl rfl rfl
    · exact ⟨rfl, rfl, rfl, rfl, rfl, rfl, rfl⟩
  · split
    · exact key _ _ rfl rfl rfl rfl rfl rfl rfl
    · exact ⟨rfl, rfl, rfl, rfl, rfl, rfl, rfl⟩

theorem flushL2_fold (ls : List Line) (s : State) : let t := ls.foldl (fun t l => t.treatL2 .wbinv l) s
    t.l1p = s.l1p ∧ t.l1d = s.l1d ∧ t.l2.mode = s.l2.mode ∧ t.l2.cc = s.l2.cc := by
  induction ls generalizing s with
  | nil => exact ⟨rfl, rfl, rfl, rfl⟩
  | cons l t ih =>
    rw [List.foldl_cons]
    obtain ⟨a, b, c, d⟩ := ih (s.treatL2 .wbinv l)
    obtain ⟨_, a', b', _, _, c', d'⟩ := treatL2_frame s .wbinv l
    exact ⟨a.trans a', b.trans b', c.trans c', d.trans d'⟩

theorem flush2_clean (ls : List Line) (s : State) (h : ∀ l ∈ ls, l.dirty = false) :
    ls.foldl (fun t l => t.treatL2 .wbinv l) s = { s with l2 := { s.l2 with lines :=
        (ls.foldl (fun t l => t.treatL2 .wbinv l) s).l2.lines } } := by
  induction ls generalizing s with
  | nil => rfl
  | cons l t ih =>
    have hl : l.dirty = false := h l (by simp)
    rw [List.foldl_cons, ih _ fun m hm => h m (by simp [hm])]
    simp [State.treatL2, hl, State.setL2]

theorem forget_eq (s : State) (r : Span) : s.forget r = { s with mem := (s.forget r).mem, free := (s.forget r).free } := by
  unfold State.forget; split <;> rfl

@[simp] theorem forget_l2 (s : State) (r : Span) : (s.forget r).l2 = s.l2 := by rw [forget_eq]

@[simp] theorem forget_l1p (s : State) (r : Span) : (s.forget r).l1p = s.l1p := by rw [forget_eq]

@[simp] theorem forget_plat (s : State) (r : Span) : (s.forget r).plat = s.plat := by rw [forget_eq]

theorem mem_framesOf (s : State) (o : CohOp) (x : Block) (f : Frame) : f ∈ s.framesOf o x ↔ f.cache = x ∧
    cohTouches o.reg x = true ∧
    ∃ l ∈ s.linesOf x, l.set = f.set ∧ l.way = f.way ∧ s.inRange o x l = true := by
  unfold State.framesOf
  obtain ⟨c, a, b⟩ := f
  split
  · next h =>
    simp only [List.mem_map, List.mem_filter, Frame.mk.injEq, h, true_and]
    constructor
    · rintro ⟨l, ⟨h1, h2⟩, rfl, rfl, rfl⟩; exact ⟨rfl, l, h1, rfl, rfl, h2⟩
    · rintro ⟨rfl, l, h1, rfl, rfl, h2⟩; exact ⟨l, ⟨h1, h2⟩, rfl, rfl, rfl⟩
  · next h => simp [h]

theorem mem_frames (s : State) (o : CohOp) (f : Frame) : f ∈ s.frames o ↔ cohTouches o.reg f.cache = true ∧
    ∃ l ∈ s.linesOf f.cache, l.set = f.set ∧ l.way = f.way ∧ s.inRange o f.cache l = true := by
  unfold State.frames
  simp only [List.mem_append, mem_framesOf]
  obtain ⟨c, a, b⟩ := f
  cases c <;> simp

theorem setOp_mem (s : State) (x o) : (s.setOp x o).mem = s.mem := by cases x <;> rfl

theorem setOp_linesOf (s : State) (x o y) : (s.setOp x o).linesOf y = s.linesOf y := by cases x <;> cases y <;> rfl


/-! ### A line that goes out to external memory leaves L1D and L2 out of it -/

theorem setL1d_busError (s : State) (x : L1d) (op : BusOp) (i : BitVec 4) (t : BitVec 3) :
    (s.setL1d x).busError op i t = (s.busError op i t).setL1d x := by
  unfold State.busError
  by_cases h : field s.emc.busErr 29 3 = 0
  · rw [if_pos h, if_pos (show field (s.setL1d x).emc.busErr 29 3 = 0 from h)]; rfl
  · rw [if_neg h, if_neg (show ¬field (s.setL1d x).emc.busErr 29 3 = 0 from h)]

theorem setL2_busError (s : State) (x : L2) (op : BusOp) (i : BitVec 4) (t : BitVec 3) :
    (s.setL2 x).busError op i t = (s.busError op i t).setL2 x := by
  unfold State.busError
  by_cases h : field s.emc.busErr 29 3 = 0
  · rw [if_pos h, if_pos (show field (s.setL2 x).emc.busErr 29 3 = 0 from h)]; rfl
  · rw [if_neg h, if_neg (show ¬field (s.setL2 x).emc.busErr 29 3 = 0 from h)]

theorem setL1d_transact (s : State) (x : L1d) (op : BusOp) (a n : Nat) (p : Priv) (id : Nat) :
    (s.setL1d x).transact op a n p id = ((s.transact op a n p id).1.setL1d x, (s.transact op a n p id).2) := by
  unfold State.transact
  rw [State.setL1d_emc]
  split
  · rfl
  · rfl
  · exact Prod.ext (setL1d_busError (s.setEmc _) x _ _ _) rfl

theorem setL2_transact (s : State) (x : L2) (op : BusOp) (a n : Nat) (p : Priv) (id : Nat) :
    (s.setL2 x).transact op a n p id = ((s.transact op a n p id).1.setL2 x, (s.transact op a n p id).2) := by
  unfold State.transact
  rw [State.setL2_emc]
  split
  · rfl
  · rfl
  · exact Prod.ext (setL2_busError (s.setEmc _) x _ _ _) rfl

theorem setL1d_extWriteLine (s : State) (x : L1d) (v : Victim) : (s.setL1d x).extWriteLine v = (s.extWriteLine v).setL1d x := by
  unfold State.extWriteLine State.busWrite
  rw [setL1d_transact, State.setL1d_plat]
  generalize s.transact .mdmaWrite v.addr v.bytes.length .supervisor s.plat.cpuId = r
  dsimp only
  rw [State.setL1d_free]
  split_ifs <;> rfl

theorem setL2_extWriteLine (s : State) (x : L2) (v : Victim) : (s.setL2 x).extWriteLine v = (s.extWriteLine v).setL2 x := by
  unfold State.extWriteLine State.busWrite
  rw [setL2_transact, State.setL2_plat]
  generalize s.transact .mdmaWrite v.addr v.bytes.length .supervisor s.plat.cpuId = r
  dsimp only
  rw [State.setL2_free]
  split_ifs <;> rfl

theorem setL1d_finishOut (s : State) (x : L1d) : (s.setL1d x).finishOut = s.finishOut.setL1d x := by
  unfold State.finishOut
  rw [State.setL1d_l2]
  split
  · rfl
  · exact setL1d_extWriteLine (s.setL2 _) x _

theorem setL2_finishOut (s : State) (x : L2) (h : x.out = s.l2.out) :
    (s.setL2 x).finishOut = s.finishOut.setL2 { x with out := none } := by
  unfold State.finishOut
  rw [show (s.setL2 x).l2.out = s.l2.out from h]
  split
  · next hn => rw [hn] at h; rw [← h]
  · rw [← setL2_extWriteLine]; rfl

/-! ### Which bytes a line that leaves a cache stores to -/

theorem Memory.read_writeMasked_outside {m : Memory} (h : m.wf = true) (a c : Nat) (bs : List (Option Byte))
    (hc : c < a ∨ a + bs.length ≤ c) : (m.writeMasked a bs).read c = m.read c := by
  rw [Memory.read_writeMasked h]
  split_ifs
  · rw [List.getElem?_eq_none (by omega)]; rfl
  · rfl

@[simp] theorem raise_mem (s : State) (e : Nat) : (s.raise e).mem = s.mem := rfl

@[simp] theorem busError_mem (s : State) (op : BusOp) (x : BitVec 4) (t : BitVec 3) : (s.busError op x t).mem = s.mem := by
  unfold State.busError
  split_ifs
  · rw [raise_mem, State.setEmc_mem]
  · rfl

@[simp] theorem transact_mem (s : State) (op : BusOp) (a n : Nat) (p : Priv) (id : Nat) : (s.transact op a n p id).1.mem = s.mem := by
  unfold State.transact
  split
  · rfl
  · rfl
  · exact (busError_mem ..).trans (State.setEmc_mem _ _)

@[simp] theorem busError_l2 (s : State) (op : BusOp) (x : BitVec 4) (t : BitVec 3) : (s.busError op x t).l2 = s.l2 := by
  unfold State.busError
  split_ifs
  · rw [show ∀ u : State, (u.raise 127).l2 = u.l2 from fun _ => rfl, State.setEmc_l2]
  · rfl

@[simp] theorem transact_l2 (s : State) (op : BusOp) (a n : Nat) (p : Priv) (id : Nat) : (s.transact op a n p id).1.l2 = s.l2 := by
  unfold State.transact
  split
  · rfl
  · rfl
  · dsimp only; rw [busError_l2, State.setEmc_l2]

theorem busWrite_l2 (s : State) (op : BusOp) (f n a : Nat) (bs : List (Option Byte)) (p : Priv) (id : Nat) :
    (s.busWrite op f n a bs p id).l2 = s.l2 := by
  unfold State.busWrite
  dsimp only
  split_ifs <;> exact transact_l2 ..

@[simp] theorem extWriteLine_l2 (s : State) (v : Victim) : (s.extWriteLine v).l2 = s.l2 := busWrite_l2 ..

/-- The line that L2 has evicted is gone, and nothing else of L2 has changed. -/
@[simp] theorem finishOut_l2 (s : State) : s.finishOut.l2 = { s.l2 with out := none } := by
  unfold State.finishOut
  split
  · next h => rw [← h]
  · rw [extWriteLine_l2]; rfl

/-- Bytes that arrive outside the megamodule store to no byte outside them. -/
theorem extPut_read (s : State) (a : Nat) (bs : List (Option Byte)) (h : s.mem.wf = true) (c : Nat)
    (hc : c < a ∨ a + bs.length ≤ c) : (s.extPut a bs).mem.read c = s.mem.read c := by
  show (s.mem.writeMasked a bs).read c = _
  exact Memory.read_writeMasked_outside h _ _ _ hc

/-- A write transaction stores to no byte outside the bytes it carries. -/
theorem busWrite_read (s : State) (op : BusOp) (f n a : Nat) (bs : List (Option Byte)) (p : Priv) (id : Nat)
    (h : s.mem.wf = true) (c : Nat) (hc : c < a ∨ a + bs.length ≤ c) :
    (s.busWrite op f n a bs p id).mem.read c = s.mem.read c := by
  have hm := transact_mem s op f n p id
  have hw : (s.transact op f n p id).1.mem.wf = true := hm ▸ h
  unfold State.busWrite
  dsimp only
  split_ifs
  · rw [extPut_read _ _ _ hw c hc, hm]
  · exact (extPut_read (State.spend _) _ _ hw c hc).trans (congrArg (fun m => Memory.read m c) hm)
  · exact congrArg (fun m => Memory.read m c) hm

/-- The byte at `c` is none of a line on its way. -/
def Outside (v : Victim) (c : Nat) : Prop := c < v.addr ∨ v.addr + v.bytes.length ≤ c

theorem extWriteLine_read (s : State) (v : Victim) (h : s.mem.wf = true) (c : Nat) (hc : Outside v c) :
    (s.extWriteLine v).mem.read c = s.mem.read c := busWrite_read _ _ _ _ _ _ _ _ h c hc

theorem busWrite_wf (s : State) (op : BusOp) (f n a : Nat) (bs : List (Option Byte)) (p : Priv) (id : Nat)
    (h : s.mem.wf = true) : (s.busWrite op f n a bs p id).mem.wf = true := by
  have hw : (s.transact op f n p id).1.mem.wf = true := transact_mem s op f n p id ▸ h
  unfold State.busWrite
  dsimp only
  split_ifs
  · exact Memory.writeMasked_wf hw _ _
  · exact Memory.writeMasked_wf hw _ _
  · exact hw

theorem finishOut_wf (s : State) (h : s.mem.wf = true) : s.finishOut.mem.wf = true := by
  unfold State.finishOut
  split
  · exact h
  · exact busWrite_wf _ _ _ _ _ _ _ _ h

/-- The line that L2 has evicted stores to no byte outside it. -/
theorem finishOut_read (s : State) (h : s.mem.wf = true) (c : Nat) (hc : ∀ v, s.l2.out = some v → Outside v c) :
    s.finishOut.mem.read c = s.mem.read c := by
  unfold State.finishOut
  split
  · rfl
  · next v hv => exact extWriteLine_read (s.setL2 { s.l2 with out := none }) v h c (hc v hv)

/-- A line that reaches L2 stores to no byte outside the line, and outside the one that L2 has evicted before. -/
theorem l2WriteVictim_read (s : State) (v : Victim) (h : s.mem.wf = true) (c : Nat) (hc : Outside v c)
    (ho : ∀ w, s.l2.out = some w → Outside w c) : (s.l2WriteVictim v).mem.read c = s.mem.read c := by
  unfold State.l2WriteVictim State.l2Take
  split
  · show ((s.wakePages v.addr).mem.writeMasked v.addr ((s.wakePages v.addr).plat.maskRom v.addr v.bytes)).read c = _
    exact Memory.read_writeMasked_outside h _ _ _ (by simpa [Platform.maskRom, Outside] using hc)
  · split
    · rfl
    · split
      · rfl
      · rw [extWriteLine_read _ v (finishOut_wf s h) c hc, finishOut_read s h c ho]

/-! ### Coherence operations: which lines stay -/

theorem lineAt_none {ls : List Line} {a b : Nat} (h : lineAt ls a b = none) {l : Line} (hl : l ∈ ls) : ¬ (l.set = a ∧
    l.way = b) := by
  have := List.find?_eq_none.1 h l hl
  simpa using this

theorem lineAt_some {ls : List Line} {a b : Nat} {l : Line} (h : lineAt ls a b = some l) : l ∈ ls ∧ l.set = a ∧ l.way =
    b := by
  refine ⟨List.mem_of_find?_eq_some h, ?_⟩
  have := List.find?_some h
  simpa using this

/-- A line left by the treatment of a frame of a global operation that invalidates stood in that cache before, and not in
the treated frame. -/
theorem treat_frames (s : State) (o : CohOp) (f : Frame) (hr : cohIsBlock o.reg =
    false) (ha : cohAction o.reg ≠ .wb) (x : Block) (l : Line)
    (hl : l ∈ (s.treat o f).linesOf x) : (∃ k ∈ s.linesOf x, k.set = l.set ∧ k.way = l.way) ∧ (⟨x, l.set,
        l.way⟩ : Frame) ≠ f := by
  obtain ⟨c, a, b⟩ := f
  unfold State.treat at hl
  dsimp only at hl
  split at hl
  · next k hk =>
    obtain ⟨hk1, rfl, rfl⟩ := lineAt_some hk
    rw [if_pos (by simp [State.inRange, hr])] at hl
    cases c
    · dsimp only at hl
      cases x
      · have := mem_dropLine.1 (show l ∈ dropLine _ _ _ from hl)
        exact ⟨⟨l, this.1, rfl, rfl⟩, by intro e; injection e with _ e1 e2; exact this.2 ⟨e1, e2⟩⟩
      · exact ⟨⟨l, hl, rfl, rfl⟩, by simp⟩
      · exact ⟨⟨l, hl, rfl, rfl⟩, by simp⟩
    · dsimp only at hl
      -- treatL1d
      obtain ⟨_, hm⟩ := l2m_treatL1d s (cohAction o.reg) k ha
      generalize s.treatL1d (cohAction o.reg) k = t at hl hm
      cases x
      · exact ⟨⟨l, by have : l ∈ t.l1p.lines := hl; rwa [hm.l1p] at this, rfl, rfl⟩, by simp⟩
      · have : l ∈ t.l1d.lines := hl
        rw [hm.l1d] at this
        have := mem_dropLine.1 (show l ∈ dropLine _ _ _ from this)
        exact ⟨⟨l, this.1, rfl, rfl⟩, by intro e; injection e with _ e1 e2; exact this.2 ⟨e1, e2⟩⟩
      · exact ⟨hm.frames l hl, by simp⟩
    · dsimp only at hl
      have key : ∃ t, s.treatL2 (cohAction o.reg) k = t ∧ t.l1p = s.l1p ∧ t.l1d = s.l1d ∧ t.l2.lines =
          dropLine s.l2.lines k.set k.way := by
        have he : ∀ (t : State) v, (t.finishOut.extWriteLine v).l2.lines = t.l2.lines := fun t v => by
          rw [extWriteLine_l2, finishOut_l2]
        obtain ⟨_, h1, h2, _⟩ := treatL2_frame s (cohAction o.reg) k
        refine ⟨_, rfl, h1, h2, ?_⟩
        unfold State.treatL2
        dsimp only
        split
        · rfl
        · next h => exact absurd h ha
        · split
          · rw [he]; rfl
          · rfl
      obtain ⟨t, ht, h1, h2, h3⟩ := key
      rw [ht] at hl
      cases x
      · exact ⟨⟨l, by have : l ∈ t.l1p.lines := hl; rwa [h1] at this, rfl, rfl⟩, by simp⟩
      · exact ⟨⟨l, by have : l ∈ t.l1d.lines := hl; rwa [h2] at this, rfl, rfl⟩, by simp⟩
      · have : l ∈ t.l2.lines := hl
        rw [h3] at this
        have := mem_dropLine.1 this
        exact ⟨⟨l, this.1, rfl, rfl⟩, by intro e; injection e with _ e1 e2; exact this.2 ⟨e1, e2⟩⟩
  · next hn =>
    refine ⟨⟨l, hl, rfl, rfl⟩, fun e => ?_⟩
    injection e with e0 e1 e2
    subst e0 e1 e2
    exact lineAt_none hn hl ⟨rfl, rfl⟩

theorem treat_power (s : State) (o : CohOp) (f : Frame) : (s.treat o f).plat = s.plat ∧ (s.treat o f).pdc = s.pdc := by
  unfold State.treat State.treatL1p
  repeat' split
  · exact ⟨rfl, rfl⟩
  · exact ⟨(treatL1d_power ..).1, (treatL1d_power ..).2.1⟩
  · exact treatL2_power ..
  · exact ⟨rfl, rfl⟩
  · exact ⟨rfl, rfl⟩

/-- Treating the L2 line below an address changes nothing of L1P and L1D. -/
theorem treatBelow_l1 (s : State) (o : CohOp) (a : Nat) : (s.treatBelow o a).l1p = s.l1p ∧ (s.treatBelow o a).l1d = s.l1d := by
  unfold State.treatBelow State.treat
  repeat' split
  all_goals first
    | exact ⟨rfl, rfl⟩
    | (next e => cases e)
    | exact ⟨(treatL2_frame ..).2.1, (treatL2_frame ..).2.2.1⟩

@[simp] theorem covers_none (o : CohOp) (x : Block) : covers o x none = false := by simp [covers]

/-- What is left of L1D once the lines that an operation acts on have arrived: a victim it acts on is gone. -/
theorem settle_l1d (s : State) (o : CohOp) :
    (s.settle o).l1d = { s.l1d with victim := if covers o .l1d s.l1d.victim then none else s.l1d.victim } := by
  have h : ∀ t : State, (if covers o .l2 t.l2.out then t.finishOut else t).l1d = t.l1d := by
    intro t; split
    · exact finishOut_l1d t
    · rfl
  unfold State.settle
  dsimp only
  split
  · next v e =>
    rw [h, e]
    split
    · rw [(treatBelow_l1 ..).2, drainVictim_l1d]
    · rw [← e]
  · next e => rw [h, e, covers_none, if_neg Bool.false_ne_true, ← e]

/-- With nothing on its way an operation waits for nothing. -/
theorem settle_of_none {s : State} (o : CohOp) (h : s.l1d.victim = none) (k : s.l2.out = none) : s.settle o = s := by
  unfold State.settle; rw [h]; dsimp only; rw [k, covers_none, if_neg Bool.false_ne_true]

theorem settle_power (s : State) (o : CohOp) : (s.settle o).plat = s.plat ∧ (s.settle o).pdc = s.pdc := by
  have hf : ∀ t : State, t.finishOut.plat = t.plat ∧ t.finishOut.pdc = t.pdc :=
    fun t => ⟨(l2m_finishOut t).plat, (l2m_finishOut t).pdc⟩
  have hd := drainVictim_power s
  have hb : ∀ a, (s.drainVictim.treatBelow o a).plat = s.plat ∧ (s.drainVictim.treatBelow o a).pdc = s.pdc := by
    intro a
    unfold State.treatBelow
    repeat' split
    · exact ⟨(treat_power ..).1.trans hd.1, (treat_power ..).2.trans hd.2⟩
    · exact hd
    · exact hd
  have hc : ∀ t : State, t.plat = s.plat ∧ t.pdc = s.pdc →
      (if covers o .l2 t.l2.out then t.finishOut else t).plat = s.plat ∧
      (if covers o .l2 t.l2.out then t.finishOut else t).pdc = s.pdc := by
    intro t h
    split
    · exact ⟨(hf t).1.trans h.1, (hf t).2.trans h.2⟩
    · exact h
  unfold State.settle
  dsimp only
  split
  · split
    · exact hc _ (hb _)
    · exact hc s ⟨rfl, rfl⟩
  · exact hc s ⟨rfl, rfl⟩

theorem treatAll_power (s : State) (o : CohOp) (l : List Frame) : (s.treatAll o l).plat = s.plat ∧ (s.treatAll o l).pdc = s.pdc := by
  unfold State.treatAll
  induction l generalizing s with
  | nil => exact ⟨rfl, rfl⟩
  | cons f t ih => exact ⟨(ih _).1.trans (treat_power s o f).1, (ih _).2.trans (treat_power s o f).2⟩

theorem treatL2Frames_power (s : State) (o : CohOp) : (s.treatL2Frames o).plat = s.plat ∧ (s.treatL2Frames o).pdc = s.pdc := by
  have k := settle_power s o
  unfold State.treatL2Frames
  split
  · exact ⟨rfl, rfl⟩
  · exact ⟨(treatAll_power ..).1.trans k.1, (treatAll_power ..).2.trans k.2⟩

theorem finishOp_power (s : State) (x : Block) : (s.finishOp x).plat = s.plat ∧ (s.finishOp x).pdc = s.pdc := by
  unfold State.finishOp
  split
  · exact ⟨rfl, rfl⟩
  · next o _ =>
    have a := treatAll_power s o o.todo
    have b := treatL2Frames_power (s.treatAll o o.todo) o
    have c := settle_power ((s.treatAll o o.todo).treatL2Frames o) o
    cases x <;> exact ⟨c.1.trans (b.1.trans a.1), c.2.trans (b.2.trans a.2)⟩

/-- Operations that finish, and one that starts, keep the platform and the power-down state. -/
theorem finishOps_power (s : State) : s.finishOps.plat = s.plat ∧ s.finishOps.pdc = s.pdc :=
  have a := finishOp_power s .l1p
  have b := finishOp_power (s.finishOp .l1p) .l1d
  have c := finishOp_power ((s.finishOp .l1p).finishOp .l1d) .l2
  ⟨c.1.trans (b.1.trans a.1), c.2.trans (b.2.trans a.2)⟩

theorem startOp_power (s : State) (r : CohReg) (b n : Nat) :
    (s.startOp r b n).plat = s.plat ∧ (s.startOp r b n).pdc = s.pdc := by
  have h := drainVictim_power s
  have k := l2m_finishOut s.drainVictim
  unfold State.startOp
  dsimp only
  cases cohBlock r <;> exact ⟨k.plat.trans h.1, k.pdc.trans h.2⟩

theorem l2cfgInvalidates_power (s : State) (v : Word) :
    (s.l2cfgInvalidates v).plat = s.plat ∧ (s.l2cfgInvalidates v).pdc = s.pdc := by
  have h : ∀ (t : State) (r : CohReg), (t.finishOps.startOp r 0 0).plat = t.plat ∧ (t.finishOps.startOp r 0 0).pdc = t.pdc :=
    fun t r => ⟨(startOp_power _ r 0 0).1.trans (finishOps_power t).1, (startOp_power _ r 0 0).2.trans (finishOps_power t).2⟩
  unfold State.l2cfgInvalidates
  dsimp only
  split <;> split
  · exact ⟨(h _ _).1.trans (h _ _).1, (h _ _).2.trans (h _ _).2⟩
  · exact h _ _
  · exact h _ _
  · exact ⟨rfl, rfl⟩

theorem finishOp_none (s : State) (x : Block) (h : s.opOf x = none) : s.finishOp x = s := by
  unfold State.finishOp; rw [h]

theorem finishOps_one (s : State) (x : Block) (h : ∀ y, y ≠ x → s.opOf y = none) : s.finishOps = s.finishOp x := by
  unfold State.finishOps
  cases x
  · rw [finishOp_none (s.finishOp .l1p) .l1d, finishOp_none _ .l2] <;> rw [finishOp_opOf] <;> simp [h]
  · rw [finishOp_none s .l1p (h _ (by simp)), finishOp_none _ .l2]; rw [finishOp_opOf]; simp [h]
  · rw [finishOp_none s .l1p (h _ (by simp)), finishOp_none s .l1d (h _ (by simp))]

/-! ### Fetch -/

theorem busRead_l1p (s : State) (op : BusOp) (a n : Nat) (p : Priv) (id : Nat) : (s.busRead op a n p id).1.l1p = s.l1p := by
  have h := (l2m_transact s op a n p id).l1p
  unfold State.busRead
  by_cases hc : (s.transact op a n p id).2
  · simpa [hc] using h
  · simpa [hc, State.spend] using h

theorem extRead_l1p (s : State) (k : AheadKind) (a n : Nat) (p : Priv) : (s.extRead k a n p).1.l1p = s.l1p := by
  have h : (s.finishOut.busRead .mdmaRead a n p s.plat.cpuId).1.l1p = s.l1p :=
    (busRead_l1p ..).trans (l2m_finishOut s).l1p
  unfold State.extRead
  dsimp only
  split
  · cases k <;> exact h
  · exact h
  · exact h

/-- An L2 read changes nothing of L1P. -/
theorem l2Read_l1p (s : State) (k : AheadKind) (a n p) : (s.l2Read k a n p).1.l1p = s.l1p := by
  unfold State.l2Read
  split
  · rfl
  · split
    · rfl
    · split
      · unfold State.l2Allocate
        dsimp only
        rw [State.setL2_l1p, extRead_l1p]
        unfold State.l2Evict
        split
        · exact (l2m_finishOut s).l1p
        · rfl
      · exact extRead_l1p ..

/-! ### Faults, events and flags -/

/-- A fault changes only the fault registers and the interrupt controller. -/
theorem recordFault_eq (s : State) (x o a p k id) : ∃ m1 m2 m3 g,
    s.recordFault x o a p k id = { s with mpL1P := m1, mpL1D := m2, mpL2 := m3, intc := g } := by
  unfold State.recordFault
  split
  · cases x <;> exact ⟨_, _, _, _, rfl⟩
  · exact ⟨_, _, _, _, rfl⟩

theorem setFlag_bit (v : BitVec 16) (k j : Nat) (hj : j < 16) : (setFlag v k).getLsbD j = (v.getLsbD j || decide (j =
    k)) := by
  unfold setFlag
  rw [BitVec.getLsbD_or, BitVec.getLsbD_ofNat, Nat.testBit_two_pow]
  simp [hj, eq_comm]


theorem raise_intc (s : State) (e) : (s.raise e).intc = { s.intc.withFlag e with pulses := s.intc.pulses ++ [e] } := rfl

theorem reportDrop_cpu (s : State) (k) : (s.reportDrop k).cpu = s.cpu := by
  unfold State.reportDrop; split
  · rw [raise_cpu, State.setIntc_cpu]
  · rfl

theorem reportDrop_mem (s : State) (k) : (s.reportDrop k).mem = s.mem := by
  unfold State.reportDrop; split
  · rw [raise_mem, State.setIntc_mem]
  · rfl

theorem withFlag_mono (c : Intc) (e i j : Nat) (hi : i < 4) (h : c.evtFlag[i].getLsbD j =
    true) : (c.withFlag e).evtFlag[i].getLsbD j = true := by
  unfold Intc.withFlag
  split
  · dsimp only
    rw [Vector.getElem_set]
    split
    · next he => subst he; rw [BitVec.getLsbD_or, h, Bool.true_or]
    · exact h
  · exact h

/-- A reported drop sets no event flag but event 96. -/
theorem reportDrop_flags (s : State) (k) : ∃ c : Intc, c.evtFlag = s.intc.evtFlag ∧ ((s.reportDrop k).intc.evtFlag =
    c.evtFlag ∨ (s.reportDrop k).intc.evtFlag = (c.withFlag 96).evtFlag) := by
  unfold State.reportDrop
  split
  · exact ⟨{ s.intc with intXStat := dropStatus (s.intc.intsel k) k }, rfl, .inr (by rw [raise_intc, State.setIntc_intc])⟩
  · exact ⟨s.intc, rfl, .inl rfl⟩

theorem mem_rising (s : State) (k : Nat) : k ∈ s.risingInputs ↔ (4 ≤ k ∧ k ≤ 15) ∧ s.intc.cpuint k = true ∧
    s.cpu.prevInt.getLsbD k = false := by
  unfold State.risingInputs
  rw [List.mem_filter]
  have : k ∈ cpuints ↔ 4 ≤ k ∧ k ≤ 15 := by
    constructor
    · intro h; simp [cpuints] at h; omega
    · rintro ⟨h1, h2⟩; interval_cases k <;> decide
  rw [this]; simp

/-- Each bit of the sampled inputs is the input itself: no other bit stands there. -/
theorem inputs_bit (c : Intc) (k : Nat) (h1 : 4 ≤ k) (h2 : k ≤ 15) : c.inputs.getLsbD k = c.cpuint k := by
  have hf : ∀ (l : List Nat) (v : BitVec 16) (j : Nat), j < 16 →
      (l.foldl (fun v k => if c.cpuint k then setFlag v k else v) v).getLsbD j =
        (v.getLsbD j || decide (j ∈ l ∧ c.cpuint j = true)) := by
    intro l
    induction l with
    | nil => intro v j _; simp
    | cons m t ih =>
      intro v j hj
      rw [List.foldl_cons, ih _ j hj]
      by_cases e : j = m
      · subst e
        cases hc : c.cpuint j <;> simp [setFlag_bit _ _ _ hj]
      · cases c.cpuint m <;> simp [setFlag_bit _ _ _ hj, e]
  have hm : k ∈ cpuints := by interval_cases k <;> decide
  unfold Intc.inputs
  rw [hf _ _ k (by omega)]
  simp [hm]

/-! ### Byte order -/

theorem little_length (v n : Nat) : (littleBytes v n).length = n := by
  induction n generalizing v with
  | zero => rfl
  | succ n ih => simp [littleBytes, ih]

theorem bytesOf_length (e : Endian) (v n : Nat) : (bytesOf e v n).length = n := by
  cases e <;> simp [bytesOf, little_length]

theorem little_value (v n : Nat) : littleValue (littleBytes v n) = v % 256 ^ n := by
  induction n generalizing v with
  | zero => simp [littleBytes, littleValue, Nat.mod_one]
  | succ n ih =>
    rw [littleBytes, littleValue, ih, BitVec.toNat_ofNat, show 256 ^ (n + 1) = 256 * 256 ^ n by rw [Nat.pow_succ,
        Nat.mul_comm]]
    exact (Nat.mod_mul).symm

/-- The value of the bytes of a value, in either byte order. -/
theorem valueOf_bytesOf (e : Endian) (v n : Nat) : valueOf e (bytesOf e v n) = v % 256 ^ n := by
  cases e <;> simp [bytesOf, valueOf, little_value]

/-! ### Commands in turn -/

theorem run_cons (i : Instr) (t : List Instr) (s u : State) (h : exec i s = .next u) : runCommands (i :: t) s =
    runCommands t u := by
  rw [runCommands, h]

theorem run_append (a b : List Instr) (s u : State) (h : runCommands a s = .next u) : runCommands (a ++ b) s =
    runCommands b u := by
  induction a generalizing s with
  | nil => cases h; rfl
  | cons i t ih =>
    rw [List.cons_append]
    cases hx : exec i s with
    | next w => rw [run_cons _ _ _ _ hx] at h ⊢; exact ih w h
    | fault f => rw [runCommands, hx] at h; cases h
    | refused f => rw [runCommands, hx] at h; cases h

theorem registerAt_ram {s : State} {a w : Nat} (h : s.region a ≠ .intReg) : registerAt s.plat.aegmuxBase a w = none := by
  unfold registerAt
  split
  · next hc =>
    unfold State.region at h
    have : a / 4 * 4 = a := by omega
    rw [this] at h
    cases hr : Reg.ofAddrOn s.plat.aegmuxBase a
    · rfl
    · simp [hr] at h
  · rfl

/-! ### Accesses of more than one aligned unit -/

theorem unitLen_le (a n : Nat) : unitLen a n ≤ n := by unfold unitLen; split_ifs <;> omega

theorem unitLen_pos (a n : Nat) (h : n ≠ 0) : 0 < unitLen a n := by unfold unitLen; split_ifs <;> omega

/-- An access is one step exactly when it is nothing or an aligned word, half-word or byte. -/
theorem severalSteps_false (a n : Nat) : severalSteps a n = false ↔ n ≤ 1 ∨ (n = 2 ∧ a % 2 = 0) ∨ (n = 4 ∧ a % 4 = 0) := by
  unfold severalSteps unitLen
  rw [decide_eq_false_iff_not]
  split_ifs <;> omega

/-- What is left of the units read ahead of a fill: those that hold no byte of `hit`. -/
theorem mem_dropFills (s : State) (hit : Nat → Bool) (w : Ahead) :
    w ∈ (s.dropFills hit).emc.fills ↔ w ∈ s.emc.fills ∧ ∀ i, i < w.bytes.length → hit (w.addr + i) = false := by
  simp [State.dropFills]

/-- Without units read ahead, an access reads what is there. -/
theorem tear_nil {s : State} {k : AheadKind} (h : s.aheadOf k = []) (a : Nat) (bs : List Byte) : s.tear k a bs = bs := by
  unfold State.tear
  rw [h]
  exact List.ext_getElem? fun i => by rw [List.getElem?_mapIdx]; exact Option.map_id' ..

end Sys2Proof.Machine
end

