-- ==== Sys2Proof/Laws/PerInstr.lean ====
section
/-!
SUPPORT. One lemma per instruction: which register it addresses, its words, and when it is well-formed.
-/
namespace Sys2Proof.Laws.Encoding

/-- The instruction is the read or the write of one register, its words are that register's at either address of
`AEGMUX0`, and it is well-formed unless the register is `INTMUX0`, which does not exist (spec/30_encoding.md R152, R153).
-/
def Statement (i : Instr) : Prop :=
  ∃ r : Reg, (i.wellFormed = true ↔ r ≠ .intmux 0) ∧
    (((∀ b, encodeOn b i = readWords b r) ∧ i = r.read) ∨ ∃ v, (∀ b, encodeOn b i = writeWords b r v) ∧ i = r.write v)

theorem evtflagRead (n : Fin 4) : Statement (.evtflagRead n) :=
  ⟨.evtflag n, iff_of_true rfl nofun, .inl ⟨fun _ => rfl, rfl⟩⟩
theorem evtflagWrite (n : Fin 4) (v : Word) : Statement (.evtflagWrite n v) :=
  ⟨.evtflag n, iff_of_true rfl nofun, .inr ⟨v, fun _ => rfl, rfl⟩⟩
theorem evtsetRead (n : Fin 4) : Statement (.evtsetRead n) :=
  ⟨.evtset n, iff_of_true rfl nofun, .inl ⟨fun _ => rfl, rfl⟩⟩
theorem evtsetWrite (n : Fin 4) (v : Word) : Statement (.evtsetWrite n v) :=
  ⟨.evtset n, iff_of_true rfl nofun, .inr ⟨v, fun _ => rfl, rfl⟩⟩
theorem evtclrRead (n : Fin 4) : Statement (.evtclrRead n) :=
  ⟨.evtclr n, iff_of_true rfl nofun, .inl ⟨fun _ => rfl, rfl⟩⟩
theorem evtclrWrite (n : Fin 4) (v : Word) : Statement (.evtclrWrite n v) :=
  ⟨.evtclr n, iff_of_true rfl nofun, .inr ⟨v, fun _ => rfl, rfl⟩⟩
theorem evtmaskRead (n : Fin 4) : Statement (.evtmaskRead n) :=
  ⟨.evtmask n, iff_of_true rfl nofun, .inl ⟨fun _ => rfl, rfl⟩⟩
theorem evtmaskWrite (n : Fin 4) (v : Word) : Statement (.evtmaskWrite n v) :=
  ⟨.evtmask n, iff_of_true rfl nofun, .inr ⟨v, fun _ => rfl, rfl⟩⟩
theorem mevtflagRead (n : Fin 4) : Statement (.mevtflagRead n) :=
  ⟨.mevtflag n, iff_of_true rfl nofun, .inl ⟨fun _ => rfl, rfl⟩⟩
theorem mevtflagWrite (n : Fin 4) (v : Word) : Statement (.mevtflagWrite n v) :=
  ⟨.mevtflag n, iff_of_true rfl nofun, .inr ⟨v, fun _ => rfl, rfl⟩⟩
theorem expmaskRead (n : Fin 4) : Statement (.expmaskRead n) :=
  ⟨.expmask n, iff_of_true rfl nofun, .inl ⟨fun _ => rfl, rfl⟩⟩
theorem expmaskWrite (n : Fin 4) (v : Word) : Statement (.expmaskWrite n v) :=
  ⟨.expmask n, iff_of_true rfl nofun, .inr ⟨v, fun _ => rfl, rfl⟩⟩
theorem mexpflagRead (n : Fin 4) : Statement (.mexpflagRead n) :=
  ⟨.mexpflag n, iff_of_true rfl nofun, .inl ⟨fun _ => rfl, rfl⟩⟩
theorem mexpflagWrite (n : Fin 4) (v : Word) : Statement (.mexpflagWrite n v) :=
  ⟨.mexpflag n, iff_of_true rfl nofun, .inr ⟨v, fun _ => rfl, rfl⟩⟩
theorem intmuxRead (n : Fin 4) : Statement (.intmuxRead n) :=
  ⟨.intmux n, by simp [Instr.wellFormed], .inl ⟨fun _ => rfl, rfl⟩⟩
theorem intmuxWrite (n : Fin 4) (v : Word) : Statement (.intmuxWrite n v) :=
  ⟨.intmux n, by simp [Instr.wellFormed], .inr ⟨v, fun _ => rfl, rfl⟩⟩
theorem intxstatRead : Statement (.intxstatRead) :=
  ⟨.intxstat, iff_of_true rfl nofun, .inl ⟨fun _ => rfl, rfl⟩⟩
theorem intxstatWrite (v : Word) : Statement (.intxstatWrite v) :=
  ⟨.intxstat, iff_of_true rfl nofun, .inr ⟨v, fun _ => rfl, rfl⟩⟩
theorem intxclrRead : Statement (.intxclrRead) :=
  ⟨.intxclr, iff_of_true rfl nofun, .inl ⟨fun _ => rfl, rfl⟩⟩
theorem intxclrWrite (v : Word) : Statement (.intxclrWrite v) :=
  ⟨.intxclr, iff_of_true rfl nofun, .inr ⟨v, fun _ => rfl, rfl⟩⟩
theorem intdmaskRead : Statement (.intdmaskRead) :=
  ⟨.intdmask, iff_of_true rfl nofun, .inl ⟨fun _ => rfl, rfl⟩⟩
theorem intdmaskWrite (v : Word) : Statement (.intdmaskWrite v) :=
  ⟨.intdmask, iff_of_true rfl nofun, .inr ⟨v, fun _ => rfl, rfl⟩⟩
theorem aegmuxRead (n : Fin 2) : Statement (.aegmuxRead n) :=
  ⟨.aegmux n, iff_of_true rfl nofun, .inl ⟨fun _ => rfl, rfl⟩⟩
theorem aegmuxWrite (n : Fin 2) (v : Word) : Statement (.aegmuxWrite n v) :=
  ⟨.aegmux n, iff_of_true rfl nofun, .inr ⟨v, fun _ => rfl, rfl⟩⟩
theorem pdccmdRead : Statement (.pdccmdRead) :=
  ⟨.pdccmd, iff_of_true rfl nofun, .inl ⟨fun _ => rfl, rfl⟩⟩
theorem pdccmdWrite (v : Word) : Statement (.pdccmdWrite v) :=
  ⟨.pdccmd, iff_of_true rfl nofun, .inr ⟨v, fun _ => rfl, rfl⟩⟩
theorem mmRevidRead : Statement (.mmRevidRead) :=
  ⟨.mmRevid, iff_of_true rfl nofun, .inl ⟨fun _ => rfl, rfl⟩⟩
theorem mmRevidWrite (v : Word) : Statement (.mmRevidWrite v) :=
  ⟨.mmRevid, iff_of_true rfl nofun, .inr ⟨v, fun _ => rfl, rfl⟩⟩
theorem idma0StatRead : Statement (.idma0StatRead) :=
  ⟨.idma0Stat, iff_of_true rfl nofun, .inl ⟨fun _ => rfl, rfl⟩⟩
theorem idma0StatWrite (v : Word) : Statement (.idma0StatWrite v) :=
  ⟨.idma0Stat, iff_of_true rfl nofun, .inr ⟨v, fun _ => rfl, rfl⟩⟩
theorem idma1StatRead : Statement (.idma1StatRead) :=
  ⟨.idma1Stat, iff_of_true rfl nofun, .inl ⟨fun _ => rfl, rfl⟩⟩
theorem idma1StatWrite (v : Word) : Statement (.idma1StatWrite v) :=
  ⟨.idma1Stat, iff_of_true rfl nofun, .inr ⟨v, fun _ => rfl, rfl⟩⟩
theorem idma0MaskRead : Statement (.idma0MaskRead) :=
  ⟨.idma0Mask, iff_of_true rfl nofun, .inl ⟨fun _ => rfl, rfl⟩⟩
theorem idma0MaskWrite (v : Word) : Statement (.idma0MaskWrite v) :=
  ⟨.idma0Mask, iff_of_true rfl nofun, .inr ⟨v, fun _ => rfl, rfl⟩⟩
theorem idma0SourceRead : Statement (.idma0SourceRead) :=
  ⟨.idma0Source, iff_of_true rfl nofun, .inl ⟨fun _ => rfl, rfl⟩⟩
theorem idma0SourceWrite (v : Word) : Statement (.idma0SourceWrite v) :=
  ⟨.idma0Source, iff_of_true rfl nofun, .inr ⟨v, fun _ => rfl, rfl⟩⟩
theorem idma0DestRead : Statement (.idma0DestRead) :=
  ⟨.idma0Dest, iff_of_true rfl nofun, .inl ⟨fun _ => rfl, rfl⟩⟩
theorem idma0DestWrite (v : Word) : Statement (.idma0DestWrite v) :=
  ⟨.idma0Dest, iff_of_true rfl nofun, .inr ⟨v, fun _ => rfl, rfl⟩⟩
theorem idma0CountRead : Statement (.idma0CountRead) :=
  ⟨.idma0Count, iff_of_true rfl nofun, .inl ⟨fun _ => rfl, rfl⟩⟩
theorem idma0CountWrite (v : Word) : Statement (.idma0CountWrite v) :=
  ⟨.idma0Count, iff_of_true rfl nofun, .inr ⟨v, fun _ => rfl, rfl⟩⟩
theorem idma1SourceRead : Statement (.idma1SourceRead) :=
  ⟨.idma1Source, iff_of_true rfl nofun, .inl ⟨fun _ => rfl, rfl⟩⟩
theorem idma1SourceWrite (v : Word) : Statement (.idma1SourceWrite v) :=
  ⟨.idma1Source, iff_of_true rfl nofun, .inr ⟨v, fun _ => rfl, rfl⟩⟩
theorem idma1DestRead : Statement (.idma1DestRead) :=
  ⟨.idma1Dest, iff_of_true rfl nofun, .inl ⟨fun _ => rfl, rfl⟩⟩
theorem idma1DestWrite (v : Word) : Statement (.idma1DestWrite v) :=
  ⟨.idma1Dest, iff_of_true rfl nofun, .inr ⟨v, fun _ => rfl, rfl⟩⟩
theorem idma1CountRead : Statement (.idma1CountRead) :=
  ⟨.idma1Count, iff_of_true rfl nofun, .inl ⟨fun _ => rfl, rfl⟩⟩
theorem idma1CountWrite (v : Word) : Statement (.idma1CountWrite v) :=
  ⟨.idma1Count, iff_of_true rfl nofun, .inr ⟨v, fun _ => rfl, rfl⟩⟩
theorem cpuarbeRead : Statement (.cpuarbeRead) :=
  ⟨.cpuarbe, iff_of_true rfl nofun, .inl ⟨fun _ => rfl, rfl⟩⟩
theorem cpuarbeWrite (v : Word) : Statement (.cpuarbeWrite v) :=
  ⟨.cpuarbe, iff_of_true rfl nofun, .inr ⟨v, fun _ => rfl, rfl⟩⟩
theorem idmaarbeRead : Statement (.idmaarbeRead) :=
  ⟨.idmaarbe, iff_of_true rfl nofun, .inl ⟨fun _ => rfl, rfl⟩⟩
theorem idmaarbeWrite (v : Word) : Statement (.idmaarbeWrite v) :=
  ⟨.idmaarbe, iff_of_true rfl nofun, .inr ⟨v, fun _ => rfl, rfl⟩⟩
theorem sdmaarbeRead : Statement (.sdmaarbeRead) :=
  ⟨.sdmaarbe, iff_of_true rfl nofun, .inl ⟨fun _ => rfl, rfl⟩⟩
theorem sdmaarbeWrite (v : Word) : Statement (.sdmaarbeWrite v) :=
  ⟨.sdmaarbe, iff_of_true rfl nofun, .inr ⟨v, fun _ => rfl, rfl⟩⟩
theorem mdmaarbeRead : Statement (.mdmaarbeRead) :=
  ⟨.mdmaarbe, iff_of_true rfl nofun, .inl ⟨fun _ => rfl, rfl⟩⟩
theorem mdmaarbeWrite (v : Word) : Statement (.mdmaarbeWrite v) :=
  ⟨.mdmaarbe, iff_of_true rfl nofun, .inr ⟨v, fun _ => rfl, rfl⟩⟩
theorem cpuarbuRead : Statement (.cpuarbuRead) :=
  ⟨.cpuarbu, iff_of_true rfl nofun, .inl ⟨fun _ => rfl, rfl⟩⟩
theorem cpuarbuWrite (v : Word) : Statement (.cpuarbuWrite v) :=
  ⟨.cpuarbu, iff_of_true rfl nofun, .inr ⟨v, fun _ => rfl, rfl⟩⟩
theorem idmaarbuRead : Statement (.idmaarbuRead) :=
  ⟨.idmaarbu, iff_of_true rfl nofun, .inl ⟨fun _ => rfl, rfl⟩⟩
theorem idmaarbuWrite (v : Word) : Statement (.idmaarbuWrite v) :=
  ⟨.idmaarbu, iff_of_true rfl nofun, .inr ⟨v, fun _ => rfl, rfl⟩⟩
theorem sdmaarbuRead : Statement (.sdmaarbuRead) :=
  ⟨.sdmaarbu, iff_of_true rfl nofun, .inl ⟨fun _ => rfl, rfl⟩⟩
theorem sdmaarbuWrite (v : Word) : Statement (.sdmaarbuWrite v) :=
  ⟨.sdmaarbu, iff_of_true rfl nofun, .inr ⟨v, fun _ => rfl, rfl⟩⟩
theorem ucarbuRead : Statement (.ucarbuRead) :=
  ⟨.ucarbu, iff_of_true rfl nofun, .inl ⟨fun _ => rfl, rfl⟩⟩
theorem ucarbuWrite (v : Word) : Statement (.ucarbuWrite v) :=
  ⟨.ucarbu, iff_of_true rfl nofun, .inr ⟨v, fun _ => rfl, rfl⟩⟩
theorem cpuarbdRead : Statement (.cpuarbdRead) :=
  ⟨.cpuarbd, iff_of_true rfl nofun, .inl ⟨fun _ => rfl, rfl⟩⟩
theorem cpuarbdWrite (v : Word) : Statement (.cpuarbdWrite v) :=
  ⟨.cpuarbd, iff_of_true rfl nofun, .inr ⟨v, fun _ => rfl, rfl⟩⟩
theorem idmaarbdRead : Statement (.idmaarbdRead) :=
  ⟨.idmaarbd, iff_of_true rfl nofun, .inl ⟨fun _ => rfl, rfl⟩⟩
theorem idmaarbdWrite (v : Word) : Statement (.idmaarbdWrite v) :=
  ⟨.idmaarbd, iff_of_true rfl nofun, .inr ⟨v, fun _ => rfl, rfl⟩⟩
theorem sdmaarbdRead : Statement (.sdmaarbdRead) :=
  ⟨.sdmaarbd, iff_of_true rfl nofun, .inl ⟨fun _ => rfl, rfl⟩⟩
theorem sdmaarbdWrite (v : Word) : Statement (.sdmaarbdWrite v) :=
  ⟨.sdmaarbd, iff_of_true rfl nofun, .inr ⟨v, fun _ => rfl, rfl⟩⟩
theorem ucarbdRead : Statement (.ucarbdRead) :=
  ⟨.ucarbd, iff_of_true rfl nofun, .inl ⟨fun _ => rfl, rfl⟩⟩
theorem ucarbdWrite (v : Word) : Statement (.ucarbdWrite v) :=
  ⟨.ucarbd, iff_of_true rfl nofun, .inr ⟨v, fun _ => rfl, rfl⟩⟩
theorem buserrRead : Statement (.buserrRead) :=
  ⟨.buserr, iff_of_true rfl nofun, .inl ⟨fun _ => rfl, rfl⟩⟩
theorem buserrWrite (v : Word) : Statement (.buserrWrite v) :=
  ⟨.buserr, iff_of_true rfl nofun, .inr ⟨v, fun _ => rfl, rfl⟩⟩
theorem buserrclrRead : Statement (.buserrclrRead) :=
  ⟨.buserrclr, iff_of_true rfl nofun, .inl ⟨fun _ => rfl, rfl⟩⟩
theorem buserrclrWrite (v : Word) : Statement (.buserrclrWrite v) :=
  ⟨.buserrclr, iff_of_true rfl nofun, .inr ⟨v, fun _ => rfl, rfl⟩⟩
theorem l2cfgRead : Statement (.l2cfgRead) :=
  ⟨.l2cfg, iff_of_true rfl nofun, .inl ⟨fun _ => rfl, rfl⟩⟩
theorem l2cfgWrite (v : Word) : Statement (.l2cfgWrite v) :=
  ⟨.l2cfg, iff_of_true rfl nofun, .inr ⟨v, fun _ => rfl, rfl⟩⟩
theorem l1pcfgRead : Statement (.l1pcfgRead) :=
  ⟨.l1pcfg, iff_of_true rfl nofun, .inl ⟨fun _ => rfl, rfl⟩⟩
theorem l1pcfgWrite (v : Word) : Statement (.l1pcfgWrite v) :=
  ⟨.l1pcfg, iff_of_true rfl nofun, .inr ⟨v, fun _ => rfl, rfl⟩⟩
theorem l1pccRead : Statement (.l1pccRead) :=
  ⟨.l1pcc, iff_of_true rfl nofun, .inl ⟨fun _ => rfl, rfl⟩⟩
theorem l1pccWrite (v : Word) : Statement (.l1pccWrite v) :=
  ⟨.l1pcc, iff_of_true rfl nofun, .inr ⟨v, fun _ => rfl, rfl⟩⟩
theorem l1dcfgRead : Statement (.l1dcfgRead) :=
  ⟨.l1dcfg, iff_of_true rfl nofun, .inl ⟨fun _ => rfl, rfl⟩⟩
theorem l1dcfgWrite (v : Word) : Statement (.l1dcfgWrite v) :=
  ⟨.l1dcfg, iff_of_true rfl nofun, .inr ⟨v, fun _ => rfl, rfl⟩⟩
theorem l1dccRead : Statement (.l1dccRead) :=
  ⟨.l1dcc, iff_of_true rfl nofun, .inl ⟨fun _ => rfl, rfl⟩⟩
theorem l1dccWrite (v : Word) : Statement (.l1dccWrite v) :=
  ⟨.l1dcc, iff_of_true rfl nofun, .inr ⟨v, fun _ => rfl, rfl⟩⟩
theorem l2wbarRead : Statement (.l2wbarRead) :=
  ⟨.l2wbar, iff_of_true rfl nofun, .inl ⟨fun _ => rfl, rfl⟩⟩
theorem l2wbarWrite (v : Word) : Statement (.l2wbarWrite v) :=
  ⟨.l2wbar, iff_of_true rfl nofun, .inr ⟨v, fun _ => rfl, rfl⟩⟩
theorem l2wwcRead : Statement (.l2wwcRead) :=
  ⟨.l2wwc, iff_of_true rfl nofun, .inl ⟨fun _ => rfl, rfl⟩⟩
theorem l2wwcWrite (v : Word) : Statement (.l2wwcWrite v) :=
  ⟨.l2wwc, iff_of_true rfl nofun, .inr ⟨v, fun _ => rfl, rfl⟩⟩
theorem l2wibarRead : Statement (.l2wibarRead) :=
  ⟨.l2wibar, iff_of_true rfl nofun, .inl ⟨fun _ => rfl, rfl⟩⟩
theorem l2wibarWrite (v : Word) : Statement (.l2wibarWrite v) :=
  ⟨.l2wibar, iff_of_true rfl nofun, .inr ⟨v, fun _ => rfl, rfl⟩⟩
theorem l2wiwcRead : Statement (.l2wiwcRead) :=
  ⟨.l2wiwc, iff_of_true rfl nofun, .inl ⟨fun _ => rfl, rfl⟩⟩
theorem l2wiwcWrite (v : Word) : Statement (.l2wiwcWrite v) :=
  ⟨.l2wiwc, iff_of_true rfl nofun, .inr ⟨v, fun _ => rfl, rfl⟩⟩
theorem l2ibarRead : Statement (.l2ibarRead) :=
  ⟨.l2ibar, iff_of_true rfl nofun, .inl ⟨fun _ => rfl, rfl⟩⟩
theorem l2ibarWrite (v : Word) : Statement (.l2ibarWrite v) :=
  ⟨.l2ibar, iff_of_true rfl nofun, .inr ⟨v, fun _ => rfl, rfl⟩⟩
theorem l2iwcRead : Statement (.l2iwcRead) :=
  ⟨.l2iwc, iff_of_true rfl nofun, .inl ⟨fun _ => rfl, rfl⟩⟩
theorem l2iwcWrite (v : Word) : Statement (.l2iwcWrite v) :=
  ⟨.l2iwc, iff_of_true rfl nofun, .inr ⟨v, fun _ => rfl, rfl⟩⟩
theorem l1pibarRead : Statement (.l1pibarRead) :=
  ⟨.l1pibar, iff_of_true rfl nofun, .inl ⟨fun _ => rfl, rfl⟩⟩
theorem l1pibarWrite (v : Word) : Statement (.l1pibarWrite v) :=
  ⟨.l1pibar, iff_of_true rfl nofun, .inr ⟨v, fun _ => rfl, rfl⟩⟩
theorem l1piwcRead : Statement (.l1piwcRead) :=
  ⟨.l1piwc, iff_of_true rfl nofun, .inl ⟨fun _ => rfl, rfl⟩⟩
theorem l1piwcWrite (v : Word) : Statement (.l1piwcWrite v) :=
  ⟨.l1piwc, iff_of_true rfl nofun, .inr ⟨v, fun _ => rfl, rfl⟩⟩
theorem l1dwibarRead : Statement (.l1dwibarRead) :=
  ⟨.l1dwibar, iff_of_true rfl nofun, .inl ⟨fun _ => rfl, rfl⟩⟩
theorem l1dwibarWrite (v : Word) : Statement (.l1dwibarWrite v) :=
  ⟨.l1dwibar, iff_of_true rfl nofun, .inr ⟨v, fun _ => rfl, rfl⟩⟩
theorem l1dwiwcRead : Statement (.l1dwiwcRead) :=
  ⟨.l1dwiwc, iff_of_true rfl nofun, .inl ⟨fun _ => rfl, rfl⟩⟩
theorem l1dwiwcWrite (v : Word) : Statement (.l1dwiwcWrite v) :=
  ⟨.l1dwiwc, iff_of_true rfl nofun, .inr ⟨v, fun _ => rfl, rfl⟩⟩
theorem l1dwbarRead : Statement (.l1dwbarRead) :=
  ⟨.l1dwbar, iff_of_true rfl nofun, .inl ⟨fun _ => rfl, rfl⟩⟩
theorem l1dwbarWrite (v : Word) : Statement (.l1dwbarWrite v) :=
  ⟨.l1dwbar, iff_of_true rfl nofun, .inr ⟨v, fun _ => rfl, rfl⟩⟩
theorem l1dwwcRead : Statement (.l1dwwcRead) :=
  ⟨.l1dwwc, iff_of_true rfl nofun, .inl ⟨fun _ => rfl, rfl⟩⟩
theorem l1dwwcWrite (v : Word) : Statement (.l1dwwcWrite v) :=
  ⟨.l1dwwc, iff_of_true rfl nofun, .inr ⟨v, fun _ => rfl, rfl⟩⟩
theorem l1dibarRead : Statement (.l1dibarRead) :=
  ⟨.l1dibar, iff_of_true rfl nofun, .inl ⟨fun _ => rfl, rfl⟩⟩
theorem l1dibarWrite (v : Word) : Statement (.l1dibarWrite v) :=
  ⟨.l1dibar, iff_of_true rfl nofun, .inr ⟨v, fun _ => rfl, rfl⟩⟩
theorem l1diwcRead : Statement (.l1diwcRead) :=
  ⟨.l1diwc, iff_of_true rfl nofun, .inl ⟨fun _ => rfl, rfl⟩⟩
theorem l1diwcWrite (v : Word) : Statement (.l1diwcWrite v) :=
  ⟨.l1diwc, iff_of_true rfl nofun, .inr ⟨v, fun _ => rfl, rfl⟩⟩
theorem l2wbRead : Statement (.l2wbRead) :=
  ⟨.l2wb, iff_of_true rfl nofun, .inl ⟨fun _ => rfl, rfl⟩⟩
theorem l2wbWrite (v : Word) : Statement (.l2wbWrite v) :=
  ⟨.l2wb, iff_of_true rfl nofun, .inr ⟨v, fun _ => rfl, rfl⟩⟩
theorem l2wbinvRead : Statement (.l2wbinvRead) :=
  ⟨.l2wbinv, iff_of_true rfl nofun, .inl ⟨fun _ => rfl, rfl⟩⟩
theorem l2wbinvWrite (v : Word) : Statement (.l2wbinvWrite v) :=
  ⟨.l2wbinv, iff_of_true rfl nofun, .inr ⟨v, fun _ => rfl, rfl⟩⟩
theorem l2invRead : Statement (.l2invRead) :=
  ⟨.l2inv, iff_of_true rfl nofun, .inl ⟨fun _ => rfl, rfl⟩⟩
theorem l2invWrite (v : Word) : Statement (.l2invWrite v) :=
  ⟨.l2inv, iff_of_true rfl nofun, .inr ⟨v, fun _ => rfl, rfl⟩⟩
theorem l1pinvRead : Statement (.l1pinvRead) :=
  ⟨.l1pinv, iff_of_true rfl nofun, .inl ⟨fun _ => rfl, rfl⟩⟩
theorem l1pinvWrite (v : Word) : Statement (.l1pinvWrite v) :=
  ⟨.l1pinv, iff_of_true rfl nofun, .inr ⟨v, fun _ => rfl, rfl⟩⟩
theorem l1dwbRead : Statement (.l1dwbRead) :=
  ⟨.l1dwb, iff_of_true rfl nofun, .inl ⟨fun _ => rfl, rfl⟩⟩
theorem l1dwbWrite (v : Word) : Statement (.l1dwbWrite v) :=
  ⟨.l1dwb, iff_of_true rfl nofun, .inr ⟨v, fun _ => rfl, rfl⟩⟩
theorem l1dwbinvRead : Statement (.l1dwbinvRead) :=
  ⟨.l1dwbinv, iff_of_true rfl nofun, .inl ⟨fun _ => rfl, rfl⟩⟩
theorem l1dwbinvWrite (v : Word) : Statement (.l1dwbinvWrite v) :=
  ⟨.l1dwbinv, iff_of_true rfl nofun, .inr ⟨v, fun _ => rfl, rfl⟩⟩
theorem l1dinvRead : Statement (.l1dinvRead) :=
  ⟨.l1dinv, iff_of_true rfl nofun, .inl ⟨fun _ => rfl, rfl⟩⟩
theorem l1dinvWrite (v : Word) : Statement (.l1dinvWrite v) :=
  ⟨.l1dinv, iff_of_true rfl nofun, .inr ⟨v, fun _ => rfl, rfl⟩⟩
theorem marRead (n : Fin 256) : Statement (.marRead n) :=
  ⟨.mar n, iff_of_true rfl nofun, .inl ⟨fun _ => rfl, rfl⟩⟩
theorem marWrite (n : Fin 256) (v : Word) : Statement (.marWrite n v) :=
  ⟨.mar n, iff_of_true rfl nofun, .inr ⟨v, fun _ => rfl, rfl⟩⟩
theorem l2mpfarRead : Statement (.l2mpfarRead) :=
  ⟨.l2mpfar, iff_of_true rfl nofun, .inl ⟨fun _ => rfl, rfl⟩⟩
theorem l2mpfarWrite (v : Word) : Statement (.l2mpfarWrite v) :=
  ⟨.l2mpfar, iff_of_true rfl nofun, .inr ⟨v, fun _ => rfl, rfl⟩⟩
theorem l2mpfsrRead : Statement (.l2mpfsrRead) :=
  ⟨.l2mpfsr, iff_of_true rfl nofun, .inl ⟨fun _ => rfl, rfl⟩⟩
theorem l2mpfsrWrite (v : Word) : Statement (.l2mpfsrWrite v) :=
  ⟨.l2mpfsr, iff_of_true rfl nofun, .inr ⟨v, fun _ => rfl, rfl⟩⟩
theorem l2mpfcrRead : Statement (.l2mpfcrRead) :=
  ⟨.l2mpfcr, iff_of_true rfl nofun, .inl ⟨fun _ => rfl, rfl⟩⟩
theorem l2mpfcrWrite (v : Word) : Statement (.l2mpfcrWrite v) :=
  ⟨.l2mpfcr, iff_of_true rfl nofun, .inr ⟨v, fun _ => rfl, rfl⟩⟩
theorem l2mplkRead (n : Fin 4) : Statement (.l2mplkRead n) :=
  ⟨.l2mplk n, iff_of_true rfl nofun, .inl ⟨fun _ => rfl, rfl⟩⟩
theorem l2mplkWrite (n : Fin 4) (v : Word) : Statement (.l2mplkWrite n v) :=
  ⟨.l2mplk n, iff_of_true rfl nofun, .inr ⟨v, fun _ => rfl, rfl⟩⟩
theorem l2mplkcmdRead : Statement (.l2mplkcmdRead) :=
  ⟨.l2mplkcmd, iff_of_true rfl nofun, .inl ⟨fun _ => rfl, rfl⟩⟩
theorem l2mplkcmdWrite (v : Word) : Statement (.l2mplkcmdWrite v) :=
  ⟨.l2mplkcmd, iff_of_true rfl nofun, .inr ⟨v, fun _ => rfl, rfl⟩⟩
theorem l2mplkstatRead : Statement (.l2mplkstatRead) :=
  ⟨.l2mplkstat, iff_of_true rfl nofun, .inl ⟨fun _ => rfl, rfl⟩⟩
theorem l2mplkstatWrite (v : Word) : Statement (.l2mplkstatWrite v) :=
  ⟨.l2mplkstat, iff_of_true rfl nofun, .inr ⟨v, fun _ => rfl, rfl⟩⟩
theorem l1pmpfarRead : Statement (.l1pmpfarRead) :=
  ⟨.l1pmpfar, iff_of_true rfl nofun, .inl ⟨fun _ => rfl, rfl⟩⟩
theorem l1pmpfarWrite (v : Word) : Statement (.l1pmpfarWrite v) :=
  ⟨.l1pmpfar, iff_of_true rfl nofun, .inr ⟨v, fun _ => rfl, rfl⟩⟩
theorem l1pmpfsrRead : Statement (.l1pmpfsrRead) :=
  ⟨.l1pmpfsr, iff_of_true rfl nofun, .inl ⟨fun _ => rfl, rfl⟩⟩
theorem l1pmpfsrWrite (v : Word) : Statement (.l1pmpfsrWrite v) :=
  ⟨.l1pmpfsr, iff_of_true rfl nofun, .inr ⟨v, fun _ => rfl, rfl⟩⟩
theorem l1pmpfcrRead : Statement (.l1pmpfcrRead) :=
  ⟨.l1pmpfcr, iff_of_true rfl nofun, .inl ⟨fun _ => rfl, rfl⟩⟩
theorem l1pmpfcrWrite (v : Word) : Statement (.l1pmpfcrWrite v) :=
  ⟨.l1pmpfcr, iff_of_true rfl nofun, .inr ⟨v, fun _ => rfl, rfl⟩⟩
theorem l1pmplkRead (n : Fin 4) : Statement (.l1pmplkRead n) :=
  ⟨.l1pmplk n, iff_of_true rfl nofun, .inl ⟨fun _ => rfl, rfl⟩⟩
theorem l1pmplkWrite (n : Fin 4) (v : Word) : Statement (.l1pmplkWrite n v) :=
  ⟨.l1pmplk n, iff_of_true rfl nofun, .inr ⟨v, fun _ => rfl, rfl⟩⟩
theorem l1pmplkcmdRead : Statement (.l1pmplkcmdRead) :=
  ⟨.l1pmplkcmd, iff_of_true rfl nofun, .inl ⟨fun _ => rfl, rfl⟩⟩
theorem l1pmplkcmdWrite (v : Word) : Statement (.l1pmplkcmdWrite v) :=
  ⟨.l1pmplkcmd, iff_of_true rfl nofun, .inr ⟨v, fun _ => rfl, rfl⟩⟩
theorem l1pmplkstatRead : Statement (.l1pmplkstatRead) :=
  ⟨.l1pmplkstat, iff_of_true rfl nofun, .inl ⟨fun _ => rfl, rfl⟩⟩
theorem l1pmplkstatWrite (v : Word) : Statement (.l1pmplkstatWrite v) :=
  ⟨.l1pmplkstat, iff_of_true rfl nofun, .inr ⟨v, fun _ => rfl, rfl⟩⟩
theorem l1dmpfarRead : Statement (.l1dmpfarRead) :=
  ⟨.l1dmpfar, iff_of_true rfl nofun, .inl ⟨fun _ => rfl, rfl⟩⟩
theorem l1dmpfarWrite (v : Word) : Statement (.l1dmpfarWrite v) :=
  ⟨.l1dmpfar, iff_of_true rfl nofun, .inr ⟨v, fun _ => rfl, rfl⟩⟩
theorem l1dmpfsrRead : Statement (.l1dmpfsrRead) :=
  ⟨.l1dmpfsr, iff_of_true rfl nofun, .inl ⟨fun _ => rfl, rfl⟩⟩
theorem l1dmpfsrWrite (v : Word) : Statement (.l1dmpfsrWrite v) :=
  ⟨.l1dmpfsr, iff_of_true rfl nofun, .inr ⟨v, fun _ => rfl, rfl⟩⟩
theorem l1dmpfcrRead : Statement (.l1dmpfcrRead) :=
  ⟨.l1dmpfcr, iff_of_true rfl nofun, .inl ⟨fun _ => rfl, rfl⟩⟩
theorem l1dmpfcrWrite (v : Word) : Statement (.l1dmpfcrWrite v) :=
  ⟨.l1dmpfcr, iff_of_true rfl nofun, .inr ⟨v, fun _ => rfl, rfl⟩⟩
theorem l1dmplkRead (n : Fin 4) : Statement (.l1dmplkRead n) :=
  ⟨.l1dmplk n, iff_of_true rfl nofun, .inl ⟨fun _ => rfl, rfl⟩⟩
theorem l1dmplkWrite (n : Fin 4) (v : Word) : Statement (.l1dmplkWrite n v) :=
  ⟨.l1dmplk n, iff_of_true rfl nofun, .inr ⟨v, fun _ => rfl, rfl⟩⟩
theorem l1dmplkcmdRead : Statement (.l1dmplkcmdRead) :=
  ⟨.l1dmplkcmd, iff_of_true rfl nofun, .inl ⟨fun _ => rfl, rfl⟩⟩
theorem l1dmplkcmdWrite (v : Word) : Statement (.l1dmplkcmdWrite v) :=
  ⟨.l1dmplkcmd, iff_of_true rfl nofun, .inr ⟨v, fun _ => rfl, rfl⟩⟩
theorem l1dmplkstatRead : Statement (.l1dmplkstatRead) :=
  ⟨.l1dmplkstat, iff_of_true rfl nofun, .inl ⟨fun _ => rfl, rfl⟩⟩
theorem l1dmplkstatWrite (v : Word) : Statement (.l1dmplkstatWrite v) :=
  ⟨.l1dmplkstat, iff_of_true rfl nofun, .inr ⟨v, fun _ => rfl, rfl⟩⟩
theorem l2mppaRead (n : Fin 64) : Statement (.l2mppaRead n) :=
  ⟨.l2mppa n, iff_of_true rfl nofun, .inl ⟨fun _ => rfl, rfl⟩⟩
theorem l2mppaWrite (n : Fin 64) (v : Word) : Statement (.l2mppaWrite n v) :=
  ⟨.l2mppa n, iff_of_true rfl nofun, .inr ⟨v, fun _ => rfl, rfl⟩⟩
theorem l1pmppaRead (n : Fin 32) : Statement (.l1pmppaRead n) :=
  ⟨.l1pmppa n, iff_of_true rfl nofun, .inl ⟨fun _ => rfl, rfl⟩⟩
theorem l1pmppaWrite (n : Fin 32) (v : Word) : Statement (.l1pmppaWrite n v) :=
  ⟨.l1pmppa n, iff_of_true rfl nofun, .inr ⟨v, fun _ => rfl, rfl⟩⟩
theorem l1dmppaRead (n : Fin 32) : Statement (.l1dmppaRead n) :=
  ⟨.l1dmppa n, iff_of_true rfl nofun, .inl ⟨fun _ => rfl, rfl⟩⟩
theorem l1dmppaWrite (n : Fin 32) (v : Word) : Statement (.l1dmppaWrite n v) :=
  ⟨.l1dmppa n, iff_of_true rfl nofun, .inr ⟨v, fun _ => rfl, rfl⟩⟩
theorem l2pdwakeRead (n : Fin 2) : Statement (.l2pdwakeRead n) :=
  ⟨.l2pdwake n, iff_of_true rfl nofun, .inl ⟨fun _ => rfl, rfl⟩⟩
theorem l2pdwakeWrite (n : Fin 2) (v : Word) : Statement (.l2pdwakeWrite n v) :=
  ⟨.l2pdwake n, iff_of_true rfl nofun, .inr ⟨v, fun _ => rfl, rfl⟩⟩
theorem l2pdsleepRead (n : Fin 2) : Statement (.l2pdsleepRead n) :=
  ⟨.l2pdsleep n, iff_of_true rfl nofun, .inl ⟨fun _ => rfl, rfl⟩⟩
theorem l2pdsleepWrite (n : Fin 2) (v : Word) : Statement (.l2pdsleepWrite n v) :=
  ⟨.l2pdsleep n, iff_of_true rfl nofun, .inr ⟨v, fun _ => rfl, rfl⟩⟩
theorem l2pdstatRead (n : Fin 2) : Statement (.l2pdstatRead n) :=
  ⟨.l2pdstat n, iff_of_true rfl nofun, .inl ⟨fun _ => rfl, rfl⟩⟩
theorem l2pdstatWrite (n : Fin 2) (v : Word) : Statement (.l2pdstatWrite n v) :=
  ⟨.l2pdstat n, iff_of_true rfl nofun, .inr ⟨v, fun _ => rfl, rfl⟩⟩

end Sys2Proof.Laws.Encoding
end

