-- ==== Sys2Proof/Tests/Slice0.lean ====
section
/-!
SUPPORT. Tests of the model: ill-formed terms, the decoding of every constructor, one state and operands that meet the
hypotheses of each statement, and single steps with values from spec/95_test_vectors.md.
-/
namespace Sys2Proof.Tests
open Sys2Proof Sys2Proof.Machine

/-! ### Helpers -/

/-- The address, direction and value of a row decode to its instruction. -/
def decodesTo (r : Word × Word × Word × Instr) : Bool :=
  match decode [r.1, r.2.1, r.2.2.1] with
  | .ok i => i = r.2.2.2
  | .error _ => false

/-- What a part of the next state is, if there is one. -/
def after {α : Type} (o : Host.Outcome State Fault Refusal) (f : State → α) : Option α :=
  match o with
  | .next t => some (f t)
  | .fault _ => none
  | .refused _ => none

theorem exists_next {o : Host.Outcome State Fault Refusal} (h : (after o fun _ => ()) = some ()) : ∃ t, o = .next t := by
  cases o with
  | next t => exact ⟨t, rfl⟩
  | fault _ => cases h
  | refused _ => cases h

/-- Reset, in user mode. -/
def userState : State := State.reset.setCpu { Cpu.reset with priv := .user }

/-- Reset of a device without memory protection. -/
def noMp : State := State.resetOf { Config.ref with hasMp := false }

/-- Reset of a device without the emulation block. -/
def noAet : State := State.resetOf { Config.ref with hasAet := false }

/-- Reset, user mode, of a device that names an event for a refused register write. -/
def faultEvent (e : RegFaultEvent) : State :=
  (State.resetOf { Config.ref with regFaultEvent := e }).setCpu { Cpu.reset with priv := .user }

/-- Reset, with the operation of a register under way over `n` words. -/
def busy (r : CohReg) (n : Nat) : State :=
  State.reset.setOp (cohBlock r) (some { reg := r, base := 0, words := n, priv := .supervisor, todo := [], loose := [], l2Listed := true })

/-- Reset, with a block base written. -/
def based (r : CohReg) (v : Word) : State := State.reset.setBar r { value := v, fresh := true }

/-- A line of the L1D cache in mode 1 at 00800100h. -/
def ramLine (perm : BitVec 16) (dirty : Bool) : Line :=
  { set := 4, way := 0, tag := 4096, dirty := dirty, data := List.replicate 64 0x11#8, perm := perm }

/-- A line of the L1D cache in mode 1 at 80000100h. -/
def extLine (perm : BitVec 16) : Line :=
  { set := 4, way := 0, tag := 0x100000, dirty := false, data := List.replicate 64 0x22#8, perm := perm }

/-- Reset, with L1D in mode 1 and these lines. -/
def cachedD (ls : List Line) : State := State.reset.setL1d { State.reset.l1d with mode := 1#3, lines := ls }

/-- Reset, with the L1P cache in mode 1, frozen, holding the packet at 00800100h. -/
def frozenP : State :=
  State.reset.setL1p { State.reset.l1p with
    mode := 1#3, oper := true
    lines := [{ set := 8, way := 0, tag := 2048, dirty := false, data := List.replicate 32 0x33#8, perm := 0xFFFF#16 }] }

/-- Reset, with every page of L1P and L1D denying everything. -/
def closed : State :=
  (State.reset.setL1p { State.reset.l1p with mppa := Vector.replicate 32 0#32 }).setL1d
    { State.reset.l1d with mppa := Vector.replicate 32 0#32 }

/-- Reset, with a fault status held in every block. -/
def faulted (v : Word) : State :=
  ((State.reset.setMpL1P { Mp.reset true with fsr := v }).setMpL1D { Mp.reset true with fsr := v }).setMpL2
    { Mp.reset true with fsr := v }

/-- Reset, with a lock in every block. -/
def locked (l : Lock) : State :=
  ((State.reset.setMpL1P { Mp.reset true with lock := l }).setMpL1D { Mp.reset true with lock := l }).setMpL2
    { Mp.reset true with lock := l }

/-- A lock with all four key words written in the sequence under way. -/
def fullLock (lk : Bool) (key tmp : Word) : Lock :=
  { lk := lk, armed := true, key := Vector.replicate 4 key, tmp := Vector.replicate 4 tmp, seen := Vector.replicate 4 true }

/-- A transfer with these ends. -/
def transfer (src dst : Word) (count pos : Nat) (fill : Bool) : Xfer :=
  { mask := 0#32, src := src, dst := dst, count := count, fill := fill, int := true, pri := 0#3, priv := .supervisor, id := 0
    pos := pos }

/-- Reset, with the channels at a stage and these transfers. -/
def channels (st : Stage) (a p : Option Xfer) : State :=
  (State.reset.setIdma0 { Chan.reset with active := a, pending := p, stage := st }).setIdma1
    { Chan.reset with active := a, pending := p, stage := st }

/-- A line of the L2 cache in mode 1 at 80000100h. -/
def l2Line (dirty : Bool) : Line :=
  { set := 2, way := 0, tag := 0x40000, dirty := dirty, data := List.replicate 128 0x44#8, perm := 0xFFFF#16 }

/-- Reset, with L2 in mode 1 and these lines, L1D in mode 1, and 80000000h cacheable. -/
def cachedL2 (ls : List Line) : State :=
  (State.reset.setL2 { State.reset.l2 with mode := 1#3, lines := ls, mar := State.reset.l2.mar.set 128 true }).setL1d
    { State.reset.l1d with mode := 1#3 }

/-- `cachedL2` with its dirty L2 line, two dirty L1D lines at 80000100h and 80000140h, and L1P in mode 1 with the packet at
80000100h. -/
def mixed : State :=
  let s := (cachedL2 [l2Line true]).setL1p { State.reset.l1p with
    mode := 1#3, lines := [{ set := 8, way := 0, tag := 0x80000, dirty := false, data := List.replicate 32 0x33#8, perm := 0#16 }] }
  s.setL1d { s.l1d with lines := [{ extLine 0#16 with dirty := true }, { extLine 0#16 with set := 5, dirty := true }] }

/-- A write buffer entry of one byte. -/
def entry (a : Nat) : WbEntry := { quad := a / 16 * 16, first := a, bytes := quadMask (a % 16) [7#8], priv := .supervisor }

/-- Reset of a device whose first 256 bytes of L1P memory are ROM. -/
def withRom : State :=
  State.resetOf { Config.ref with l1p := { Config.ref.l1p with rom := [⟨0x00E00000, 0x100⟩] } }

/-- Reset, with an agenda. -/
def doing (xs : List Action) : State := State.reset.setAgenda xs

/-- Reset, with one byte of L1D RAM. -/
def oneByte : State := State.reset.setMem { cells := [(0x00F00000, 5#8)], lost := [] }

/-! ### Ill-formed terms and words -/

theorem test_wellFormed_refuses : Instr.wellFormed (.intmuxRead 0) = false ∧ Instr.wellFormed (.intmuxWrite 0 1#32) = false := by
  decide

/-- The reference platform is a legal one (spec/00_scope.md R5). -/
theorem test_platLegal : platLegal Config.ref = true := by decide

theorem test_decode_refuses :
    decode [] = .error .length ∧ decode [0x01800000#32, 0#32] = .error .length ∧
    decode [0x01800002#32, 0#32, 0#32] = .error .misaligned ∧
    decode [0x01800100#32, 1#32, 1#32] = .error .unlistedRegister ∧
    decode [0x01848400#32, 0#32, 0#32] = .error .unlistedRegister ∧
    decode [0x01800000#32, 2#32, 0#32] = .error .direction ∧
    decode [0x01800000#32, 0#32, 1#32] = .error .readWithValue := by
  decide

/-! ### Decoding -/

/-- The rows EVTFLAGn.read to INTMUXn.write (spec/30_encoding.md R153, R154). -/
theorem test_decode_rows_1 : ([
    (0x01800000#32, 0#32, 0#32, .evtflagRead 0),
    (0x0180000C#32, 0#32, 0#32, .evtflagRead 3),
    (0x0180000C#32, 1#32, 0x80000101#32, .evtflagWrite 3 0x80000101#32),
    (0x0180002C#32, 1#32, 0x80000201#32, .evtsetWrite 3 0x80000201#32),
    (0x01800020#32, 0#32, 0#32, .evtsetRead 0),
    (0x0180002C#32, 0#32, 0#32, .evtsetRead 3),
    (0x0180004C#32, 1#32, 0x80000401#32, .evtclrWrite 3 0x80000401#32),
    (0x01800040#32, 0#32, 0#32, .evtclrRead 0),
    (0x0180004C#32, 0#32, 0#32, .evtclrRead 3),
    (0x0180008C#32, 1#32, 0x80000601#32, .evtmaskWrite 3 0x80000601#32),
    (0x01800080#32, 0#32, 0#32, .evtmaskRead 0),
    (0x0180008C#32, 0#32, 0#32, .evtmaskRead 3),
    (0x018000A0#32, 0#32, 0#32, .mevtflagRead 0),
    (0x018000AC#32, 0#32, 0#32, .mevtflagRead 3),
    (0x018000AC#32, 1#32, 0x80000901#32, .mevtflagWrite 3 0x80000901#32),
    (0x018000CC#32, 1#32, 0x80000A01#32, .expmaskWrite 3 0x80000A01#32),
    (0x018000C0#32, 0#32, 0#32, .expmaskRead 0),
    (0x018000CC#32, 0#32, 0#32, .expmaskRead 3),
    (0x018000E0#32, 0#32, 0#32, .mexpflagRead 0),
    (0x018000EC#32, 0#32, 0#32, .mexpflagRead 3),
    (0x018000EC#32, 1#32, 0x80000D01#32, .mexpflagWrite 3 0x80000D01#32),
    (0x0180010C#32, 1#32, 0x80000E01#32, .intmuxWrite 3 0x80000E01#32)] : List (Word × Word × Word × Instr)).all decodesTo = true := by
  decide

/-- The rows INTMUXn.read to IDMA0_SOURCE.write (spec/30_encoding.md R153, R154). -/
theorem test_decode_rows_2 : ([
    (0x01800104#32, 0#32, 0#32, .intmuxRead 1),
    (0x0180010C#32, 0#32, 0#32, .intmuxRead 3),
    (0x01800180#32, 0#32, 0#32, .intxstatRead),
    (0x01800180#32, 1#32, 0x80001101#32, .intxstatWrite 0x80001101#32),
    (0x01800184#32, 1#32, 0x80001201#32, .intxclrWrite 0x80001201#32),
    (0x01800184#32, 0#32, 0#32, .intxclrRead),
    (0x01800188#32, 1#32, 0x80001401#32, .intdmaskWrite 0x80001401#32),
    (0x01800188#32, 0#32, 0#32, .intdmaskRead),
    (0x01810144#32, 1#32, 0x80001601#32, .aegmuxWrite 1 0x80001601#32),
    (0x01810140#32, 0#32, 0#32, .aegmuxRead 0),
    (0x01810144#32, 0#32, 0#32, .aegmuxRead 1),
    (0x01810000#32, 1#32, 0x80001801#32, .pdccmdWrite 0x80001801#32),
    (0x01810000#32, 0#32, 0#32, .pdccmdRead),
    (0x01812000#32, 0#32, 0#32, .mmRevidRead),
    (0x01812000#32, 1#32, 0x80001B01#32, .mmRevidWrite 0x80001B01#32),
    (0x01820000#32, 0#32, 0#32, .idma0StatRead),
    (0x01820000#32, 1#32, 0x80001D01#32, .idma0StatWrite 0x80001D01#32),
    (0x01820100#32, 0#32, 0#32, .idma1StatRead),
    (0x01820100#32, 1#32, 0x80001F01#32, .idma1StatWrite 0x80001F01#32),
    (0x01820004#32, 1#32, 0x80002001#32, .idma0MaskWrite 0x80002001#32),
    (0x01820004#32, 0#32, 0#32, .idma0MaskRead),
    (0x01820008#32, 1#32, 0x80002201#32, .idma0SourceWrite 0x80002201#32)] : List (Word × Word × Word × Instr)).all decodesTo = true := by
  decide

/-- The rows IDMA0_SOURCE.read to IDMAARBU.write (spec/30_encoding.md R153, R154). -/
theorem test_decode_rows_3 : ([
    (0x01820008#32, 0#32, 0#32, .idma0SourceRead),
    (0x0182000C#32, 1#32, 0x80002401#32, .idma0DestWrite 0x80002401#32),
    (0x0182000C#32, 0#32, 0#32, .idma0DestRead),
    (0x01820010#32, 1#32, 0x80002601#32, .idma0CountWrite 0x80002601#32),
    (0x01820010#32, 0#32, 0#32, .idma0CountRead),
    (0x01820108#32, 1#32, 0x80002801#32, .idma1SourceWrite 0x80002801#32),
    (0x01820108#32, 0#32, 0#32, .idma1SourceRead),
    (0x0182010C#32, 1#32, 0x80002A01#32, .idma1DestWrite 0x80002A01#32),
    (0x0182010C#32, 0#32, 0#32, .idma1DestRead),
    (0x01820110#32, 1#32, 0x80002C01#32, .idma1CountWrite 0x80002C01#32),
    (0x01820110#32, 0#32, 0#32, .idma1CountRead),
    (0x01820200#32, 1#32, 0x80002E01#32, .cpuarbeWrite 0x80002E01#32),
    (0x01820200#32, 0#32, 0#32, .cpuarbeRead),
    (0x01820204#32, 1#32, 0x80003001#32, .idmaarbeWrite 0x80003001#32),
    (0x01820204#32, 0#32, 0#32, .idmaarbeRead),
    (0x01820208#32, 1#32, 0x80003201#32, .sdmaarbeWrite 0x80003201#32),
    (0x01820208#32, 0#32, 0#32, .sdmaarbeRead),
    (0x0182020C#32, 1#32, 0x80003401#32, .mdmaarbeWrite 0x80003401#32),
    (0x0182020C#32, 0#32, 0#32, .mdmaarbeRead),
    (0x01841000#32, 1#32, 0x80003601#32, .cpuarbuWrite 0x80003601#32),
    (0x01841000#32, 0#32, 0#32, .cpuarbuRead),
    (0x01841004#32, 1#32, 0x80003801#32, .idmaarbuWrite 0x80003801#32)] : List (Word × Word × Word × Instr)).all decodesTo = true := by
  decide

/-- The rows IDMAARBU.read to L1PCC.write (spec/30_encoding.md R153, R154). -/
theorem test_decode_rows_4 : ([
    (0x01841004#32, 0#32, 0#32, .idmaarbuRead),
    (0x01841008#32, 1#32, 0x80003A01#32, .sdmaarbuWrite 0x80003A01#32),
    (0x01841008#32, 0#32, 0#32, .sdmaarbuRead),
    (0x0184100C#32, 1#32, 0x80003C01#32, .ucarbuWrite 0x80003C01#32),
    (0x0184100C#32, 0#32, 0#32, .ucarbuRead),
    (0x01841040#32, 1#32, 0x80003E01#32, .cpuarbdWrite 0x80003E01#32),
    (0x01841040#32, 0#32, 0#32, .cpuarbdRead),
    (0x01841044#32, 1#32, 0x80004001#32, .idmaarbdWrite 0x80004001#32),
    (0x01841044#32, 0#32, 0#32, .idmaarbdRead),
    (0x01841048#32, 1#32, 0x80004201#32, .sdmaarbdWrite 0x80004201#32),
    (0x01841048#32, 0#32, 0#32, .sdmaarbdRead),
    (0x0184104C#32, 1#32, 0x80004401#32, .ucarbdWrite 0x80004401#32),
    (0x0184104C#32, 0#32, 0#32, .ucarbdRead),
    (0x01820400#32, 0#32, 0#32, .buserrRead),
    (0x01820400#32, 1#32, 0x80004701#32, .buserrWrite 0x80004701#32),
    (0x01820404#32, 1#32, 0x80004801#32, .buserrclrWrite 0x80004801#32),
    (0x01820404#32, 0#32, 0#32, .buserrclrRead),
    (0x01840000#32, 1#32, 0x80004A01#32, .l2cfgWrite 0x80004A01#32),
    (0x01840000#32, 0#32, 0#32, .l2cfgRead),
    (0x01840020#32, 1#32, 0x80004C01#32, .l1pcfgWrite 0x80004C01#32),
    (0x01840020#32, 0#32, 0#32, .l1pcfgRead),
    (0x01840024#32, 1#32, 0x80004E01#32, .l1pccWrite 0x80004E01#32)] : List (Word × Word × Word × Instr)).all decodesTo = true := by
  decide

/-- The rows L1PCC.read to L1DWIBAR.write (spec/30_encoding.md R153, R154). -/
theorem test_decode_rows_5 : ([
    (0x01840024#32, 0#32, 0#32, .l1pccRead),
    (0x01840040#32, 1#32, 0x80005001#32, .l1dcfgWrite 0x80005001#32),
    (0x01840040#32, 0#32, 0#32, .l1dcfgRead),
    (0x01840044#32, 1#32, 0x80005201#32, .l1dccWrite 0x80005201#32),
    (0x01840044#32, 0#32, 0#32, .l1dccRead),
    (0x01844000#32, 1#32, 0x80005401#32, .l2wbarWrite 0x80005401#32),
    (0x01844000#32, 0#32, 0#32, .l2wbarRead),
    (0x01844004#32, 1#32, 0x80005601#32, .l2wwcWrite 0x80005601#32),
    (0x01844004#32, 0#32, 0#32, .l2wwcRead),
    (0x01844010#32, 1#32, 0x80005801#32, .l2wibarWrite 0x80005801#32),
    (0x01844010#32, 0#32, 0#32, .l2wibarRead),
    (0x01844014#32, 1#32, 0x80005A01#32, .l2wiwcWrite 0x80005A01#32),
    (0x01844014#32, 0#32, 0#32, .l2wiwcRead),
    (0x01844018#32, 1#32, 0x80005C01#32, .l2ibarWrite 0x80005C01#32),
    (0x01844018#32, 0#32, 0#32, .l2ibarRead),
    (0x0184401C#32, 1#32, 0x80005E01#32, .l2iwcWrite 0x80005E01#32),
    (0x0184401C#32, 0#32, 0#32, .l2iwcRead),
    (0x01844020#32, 1#32, 0x80006001#32, .l1pibarWrite 0x80006001#32),
    (0x01844020#32, 0#32, 0#32, .l1pibarRead),
    (0x01844024#32, 1#32, 0x80006201#32, .l1piwcWrite 0x80006201#32),
    (0x01844024#32, 0#32, 0#32, .l1piwcRead),
    (0x01844030#32, 1#32, 0x80006401#32, .l1dwibarWrite 0x80006401#32)] : List (Word × Word × Word × Instr)).all decodesTo = true := by
  decide

/-- The rows L1DWIBAR.read to L1DWBINV.write (spec/30_encoding.md R153, R154). -/
theorem test_decode_rows_6 : ([
    (0x01844030#32, 0#32, 0#32, .l1dwibarRead),
    (0x01844034#32, 1#32, 0x80006601#32, .l1dwiwcWrite 0x80006601#32),
    (0x01844034#32, 0#32, 0#32, .l1dwiwcRead),
    (0x01844040#32, 1#32, 0x80006801#32, .l1dwbarWrite 0x80006801#32),
    (0x01844040#32, 0#32, 0#32, .l1dwbarRead),
    (0x01844044#32, 1#32, 0x80006A01#32, .l1dwwcWrite 0x80006A01#32),
    (0x01844044#32, 0#32, 0#32, .l1dwwcRead),
    (0x01844048#32, 1#32, 0x80006C01#32, .l1dibarWrite 0x80006C01#32),
    (0x01844048#32, 0#32, 0#32, .l1dibarRead),
    (0x0184404C#32, 1#32, 0x80006E01#32, .l1diwcWrite 0x80006E01#32),
    (0x0184404C#32, 0#32, 0#32, .l1diwcRead),
    (0x01845000#32, 1#32, 0x80007001#32, .l2wbWrite 0x80007001#32),
    (0x01845000#32, 0#32, 0#32, .l2wbRead),
    (0x01845004#32, 1#32, 0x80007201#32, .l2wbinvWrite 0x80007201#32),
    (0x01845004#32, 0#32, 0#32, .l2wbinvRead),
    (0x01845008#32, 1#32, 0x80007401#32, .l2invWrite 0x80007401#32),
    (0x01845008#32, 0#32, 0#32, .l2invRead),
    (0x01845028#32, 1#32, 0x80007601#32, .l1pinvWrite 0x80007601#32),
    (0x01845028#32, 0#32, 0#32, .l1pinvRead),
    (0x01845040#32, 1#32, 0x80007801#32, .l1dwbWrite 0x80007801#32),
    (0x01845040#32, 0#32, 0#32, .l1dwbRead),
    (0x01845044#32, 1#32, 0x80007A01#32, .l1dwbinvWrite 0x80007A01#32)] : List (Word × Word × Word × Instr)).all decodesTo = true := by
  decide

/-- The rows L1DWBINV.read to L1PMPFSR.read (spec/30_encoding.md R153, R154). -/
theorem test_decode_rows_7 : ([
    (0x01845044#32, 0#32, 0#32, .l1dwbinvRead),
    (0x01845048#32, 1#32, 0x80007C01#32, .l1dinvWrite 0x80007C01#32),
    (0x01845048#32, 0#32, 0#32, .l1dinvRead),
    (0x018483FC#32, 1#32, 0x80007E01#32, .marWrite 255 0x80007E01#32),
    (0x01848000#32, 0#32, 0#32, .marRead 0),
    (0x018483FC#32, 0#32, 0#32, .marRead 255),
    (0x0184A000#32, 0#32, 0#32, .l2mpfarRead),
    (0x0184A000#32, 1#32, 0x80008101#32, .l2mpfarWrite 0x80008101#32),
    (0x0184A004#32, 0#32, 0#32, .l2mpfsrRead),
    (0x0184A004#32, 1#32, 0x80008301#32, .l2mpfsrWrite 0x80008301#32),
    (0x0184A008#32, 1#32, 0x80008401#32, .l2mpfcrWrite 0x80008401#32),
    (0x0184A008#32, 0#32, 0#32, .l2mpfcrRead),
    (0x0184A10C#32, 1#32, 0x80008601#32, .l2mplkWrite 3 0x80008601#32),
    (0x0184A100#32, 0#32, 0#32, .l2mplkRead 0),
    (0x0184A10C#32, 0#32, 0#32, .l2mplkRead 3),
    (0x0184A110#32, 1#32, 0x80008801#32, .l2mplkcmdWrite 0x80008801#32),
    (0x0184A110#32, 0#32, 0#32, .l2mplkcmdRead),
    (0x0184A114#32, 0#32, 0#32, .l2mplkstatRead),
    (0x0184A114#32, 1#32, 0x80008B01#32, .l2mplkstatWrite 0x80008B01#32),
    (0x0184A400#32, 0#32, 0#32, .l1pmpfarRead),
    (0x0184A400#32, 1#32, 0x80008D01#32, .l1pmpfarWrite 0x80008D01#32),
    (0x0184A404#32, 0#32, 0#32, .l1pmpfsrRead)] : List (Word × Word × Word × Instr)).all decodesTo = true := by
  decide

/-- The rows L1PMPFSR.write to L1DMPLKSTAT.read (spec/30_encoding.md R153, R154). -/
theorem test_decode_rows_8 : ([
    (0x0184A404#32, 1#32, 0x80008F01#32, .l1pmpfsrWrite 0x80008F01#32),
    (0x0184A408#32, 1#32, 0x80009001#32, .l1pmpfcrWrite 0x80009001#32),
    (0x0184A408#32, 0#32, 0#32, .l1pmpfcrRead),
    (0x0184A50C#32, 1#32, 0x80009201#32, .l1pmplkWrite 3 0x80009201#32),
    (0x0184A500#32, 0#32, 0#32, .l1pmplkRead 0),
    (0x0184A50C#32, 0#32, 0#32, .l1pmplkRead 3),
    (0x0184A510#32, 1#32, 0x80009401#32, .l1pmplkcmdWrite 0x80009401#32),
    (0x0184A510#32, 0#32, 0#32, .l1pmplkcmdRead),
    (0x0184A514#32, 0#32, 0#32, .l1pmplkstatRead),
    (0x0184A514#32, 1#32, 0x80009701#32, .l1pmplkstatWrite 0x80009701#32),
    (0x0184AC00#32, 0#32, 0#32, .l1dmpfarRead),
    (0x0184AC00#32, 1#32, 0x80009901#32, .l1dmpfarWrite 0x80009901#32),
    (0x0184AC04#32, 0#32, 0#32, .l1dmpfsrRead),
    (0x0184AC04#32, 1#32, 0x80009B01#32, .l1dmpfsrWrite 0x80009B01#32),
    (0x0184AC08#32, 1#32, 0x80009C01#32, .l1dmpfcrWrite 0x80009C01#32),
    (0x0184AC08#32, 0#32, 0#32, .l1dmpfcrRead),
    (0x0184AD0C#32, 1#32, 0x80009E01#32, .l1dmplkWrite 3 0x80009E01#32),
    (0x0184AD00#32, 0#32, 0#32, .l1dmplkRead 0),
    (0x0184AD0C#32, 0#32, 0#32, .l1dmplkRead 3),
    (0x0184AD10#32, 1#32, 0x8000A001#32, .l1dmplkcmdWrite 0x8000A001#32),
    (0x0184AD10#32, 0#32, 0#32, .l1dmplkcmdRead),
    (0x0184AD14#32, 0#32, 0#32, .l1dmplkstatRead)] : List (Word × Word × Word × Instr)).all decodesTo = true := by
  decide

/-- The rows L1DMPLKSTAT.write to L2PDSTATn.write (spec/30_encoding.md R153, R154). -/
theorem test_decode_rows_9 : ([
    (0x0184AD14#32, 1#32, 0x8000A301#32, .l1dmplkstatWrite 0x8000A301#32),
    (0x0184A2FC#32, 1#32, 0x8000A401#32, .l2mppaWrite 63 0x8000A401#32),
    (0x0184A200#32, 0#32, 0#32, .l2mppaRead 0),
    (0x0184A2FC#32, 0#32, 0#32, .l2mppaRead 63),
    (0x0184A67C#32, 1#32, 0x8000A601#32, .l1pmppaWrite 31 0x8000A601#32),
    (0x0184A600#32, 0#32, 0#32, .l1pmppaRead 0),
    (0x0184A67C#32, 0#32, 0#32, .l1pmppaRead 31),
    (0x0184AE7C#32, 1#32, 0x8000A801#32, .l1dmppaWrite 31 0x8000A801#32),
    (0x0184AE00#32, 0#32, 0#32, .l1dmppaRead 0),
    (0x0184AE7C#32, 0#32, 0#32, .l1dmppaRead 31),
    (0x0184C044#32, 1#32, 0x8000AA01#32, .l2pdwakeWrite 1 0x8000AA01#32),
    (0x0184C040#32, 0#32, 0#32, .l2pdwakeRead 0),
    (0x0184C044#32, 0#32, 0#32, .l2pdwakeRead 1),
    (0x0184C054#32, 1#32, 0x8000AC01#32, .l2pdsleepWrite 1 0x8000AC01#32),
    (0x0184C050#32, 0#32, 0#32, .l2pdsleepRead 0),
    (0x0184C054#32, 0#32, 0#32, .l2pdsleepRead 1),
    (0x0184C060#32, 0#32, 0#32, .l2pdstatRead 0),
    (0x0184C064#32, 0#32, 0#32, .l2pdstatRead 1),
    (0x0184C064#32, 1#32, 0x8000AF01#32, .l2pdstatWrite 1 0x8000AF01#32)] : List (Word × Word × Word × Instr)).all decodesTo = true := by
  decide

/-- The other address of the emulation block (spec/90_conflicts.md C24). -/
theorem test_decode_aegmux : (match decodeOn .inOrder [0x01800140#32, 1#32, 9#32] with
    | .ok i => decide (i = .aegmuxWrite 0 9#32)
    | .error _ => false) = true := by decide

/-! ### The hypotheses of the statements are met -/

theorem witness_DecodeOfEncode : Instr.wellFormed (.intmuxWrite 1 0xFFFFFFFF#32) = true ∧
    Instr.wellFormed (.intmuxRead 3) = true ∧ Instr.wellFormed (.marWrite 255 0#32) = true ∧
    Instr.wellFormed (.aegmuxWrite 1 0#32) = true := by decide

theorem witness_EncodeOfDecode :
    decodeOn .printed [0x0184A2FC#32, 1#32, 0xFFFFFFFF#32] = .ok (.l2mppaWrite 63 0xFFFFFFFF#32) ∧
    decodeOn .inOrder [0x01800144#32, 0#32, 0#32] = .ok (.aegmuxRead 1) := by decide

theorem witness_StepRunsDecodedCommand :
    let s := doing [.command [0x01800020#32, 1#32, 0x10#32], .nmi]
    s.agenda = .command [0x01800020#32, 1#32, 0x10#32] :: [.nmi] ∧ s.mayIssue none = true ∧
    decodeOn s.plat.aegmuxBase [0x01800020#32, 1#32, 0x10#32] = .ok (.evtsetWrite 0 0x10#32) := by decide

theorem witness_RegisterAccessIsItsCommand :
    Reg.ofAddrOn State.reset.plat.aegmuxBase 0x018483FC = some (.mar 255) ∧
    Reg.ofAddrOn State.reset.plat.aegmuxBase 0x01800000 = some (.evtflag 0) := by decide

/-- The premises of `IntcReadsAnswer`, `MaskedEventFlagsRead`, `IntcWritesTakeEffect`, `PdccmdHoldsMegpd`,
`MiscWritesTakeEffect`, `ArbitrationRegistersHoldTheirFields`, `L1pModeChange`, `GlobalOperationWrites` and
`MarWritesAndPageSleep`: what the privilege check answers, user code of a device without memory protection included, and the
emulation block. -/
theorem witness_privileges : State.reset.plat.hasAet = true ∧ State.reset.mayWrite = true ∧ userState.mayWrite = false ∧
    (noMp.setCpu userState.cpu).mayWrite = true ∧ userState.plat.hasAet = true ∧ State.reset.bwmReserved = true := by decide

theorem witness_L1CacheReadsAnswer : ∀ r ∈ [CohReg.l1piwc, .l1dwiwc, .l1dwwc, .l1diwc], ∀ n ∈ [1, 0xFFFF],
    (State.reset.opOf (cohBlock r)).map CohOp.reg ≠ some r ∧
    ((busy r n).opOf (cohBlock r)).map (fun o => (o.reg, o.words)) = some (r, n) ∧ 0 < n ∧ n < 0x10000 := by decide

theorem witness_L2ReadsAnswer :
    (∀ r ∈ [CohReg.l2wwc, .l2wiwc, .l2iwc], ∀ n ∈ [1, 0xFFFF],
      (State.reset.opOf (cohBlock r)).map CohOp.reg ≠ some r ∧
      ((busy r n).opOf (cohBlock r)).map (fun o => (o.reg, o.words)) = some (r, n) ∧ 0 < n ∧ n < 0x10000) ∧
    (1 ≤ (1 : Fin 256).val ∧ (15 : Fin 256).val ≤ 15 ∧ 16 ≤ (16 : Fin 256).val) := by decide

theorem witness_ProtectionReadsAnswer : State.reset.plat.hasMp = true ∧ (State.reset.mp .l1p).farKnown = false ∧
    (faulted 0x102#32).plat.hasMp = true ∧ ((faulted 0x102#32).mp .l1p).farKnown = true := by decide

theorem witness_ArbitrationCountsTheBlocked :
    let s := State.reset.setBwm { Bwm.reset with cnt := Vector.replicate 16 16 }
    let t := transfer 0#32 0#32 4 0 true
    [Request.cpu, .sdma 8] ≠ [] ∧ s.waitOf .l1d .cpu ≠ 0 ∧ s.waitOf .l1d .cpu ≤ s.bwm.count .l1d Request.cpu.class ∧
    s.idma1.active = none ∧ (channels .none (some t) none).idma1.active = some t ∧
    (∀ x ∈ [Resource.l1d, .l2, .emc], (s.bwm.arbReg x .cpu).toNat % 64 ∈ legalWaits) ∧
    Request.cpu.class = 0 ∧ (s.bwm.arbReg .l1p .cpu).toNat % 64 ∈ legalWaits := by decide

theorem witness_L1dModeChange : (cachedD [ramLine 0xFFFF#16 false]).mayWrite = true ∧
    (cachedD [ramLine 0xFFFF#16 false]).l1d.victim = none ∧
    ∀ l ∈ (cachedD [ramLine 0xFFFF#16 false]).l1d.lines, l.dirty = false := by decide

theorem witness_L2ModeChange :
    let s := cachedL2 [l2Line false]
    s.mayWrite = true ∧ s.l1d.victim = none ∧ s.l2.out = none ∧ (∀ l ∈ s.l2.lines, l.dirty = false) ∧
    (0x00000002#32).getLsbD 9 = false ∧ (0x00000002#32).getLsbD 8 = false ∧
    (0x00000200#32).getLsbD 9 = true ∧ (0x00000200#32).getLsbD 8 = false ∧
    (0x00000300#32).getLsbD 9 = true ∧ (0x00000300#32).getLsbD 8 = true ∧
    (!(s.plat.l2.cacheSpan s.l2Size).has 0x00800000 &&
      !(s.plat.l2.cacheSpan (s.plat.l2.cacheSize ((0x00000002#32).setWidth 3))).has 0x00800000) = true := by decide

theorem witness_BaseAddressWrites : (Instr.l2ibarWrite 1#32, CohReg.l2iwc) ∈
    [(Instr.l1pibarWrite 1#32, CohReg.l1piwc), (.l1dwibarWrite 1#32, .l1dwiwc), (.l1dwbarWrite 1#32, .l1dwwc),
      (.l1dibarWrite 1#32, .l1diwc), (.l2wibarWrite 1#32, .l2wiwc), (.l2wbarWrite 1#32, .l2wwc),
      (.l2ibarWrite 1#32, .l2iwc)] := by decide

/-- The clauses in their order, each with the last count or base that belongs to it. -/
theorem witness_WordCountWrites :
    (0x00010000#32).toNat % 0x10000 = 0 ∧
    (cohBlock .l2wwc = .l2 ∧ 0xFFE0 < (0x0000FFE1#32).toNat % 0x10000) ∧
    (¬(0xFFE0 < (0x0000FFE0#32).toNat % 0x10000) ∧ (0x0000FFE0#32).toNat % 0x10000 ≠ 0) ∧
    (¬(cohBlock .l1dwwc = .l2) ∧ (0x0000FFFF#32).toNat % 0x10000 ≠ 0) ∧
    (let u := (based .l2wwc 0xFFFFFFFC#32).finishOps
     (u.barOf .l2wwc).fresh = true ∧ (u.barOf .l2wwc).value.toNat + 4 * 1 ≤ 0x100000000 ∧
      0x100000000 < (u.barOf .l2wwc).value.toNat + 4 * 2) ∧
    (let u := (based .l1piwc 0xFFFC0004#32).finishOps
     (u.barOf .l1piwc).fresh = true ∧ (u.barOf .l1piwc).value.toNat + 4 * 0xFFFF ≤ 0x100000000) ∧
    (State.reset.finishOps.barOf .l1diwc).fresh = false := by decide

/-- A whole line, and one of which two words are left. -/
theorem witness_WrittenBackLineStoresOnlyItsBytes :
    let left := List.replicate 56 none ++ List.replicate 8 (some 1#8)
    let v : Victim := { addr := 0x00800100, bytes := List.replicate 64 (some 1#8) }
    let w : Victim := { addr := 0x80000100, bytes := left }
    let x : Victim := { addr := 0x80000080, bytes := List.replicate 128 (some 1#8) }
    let s := (cachedD [ramLine 0xFFFF#16 true]).setL1d { (cachedD [ramLine 0xFFFF#16 true]).l1d with victim := some v }
    let t (ls : List Line) := (cachedL2 ls).setL1d { (cachedL2 ls).l1d with victim := some w }
    let o (u : State) := u.setL2 { u.l2 with out := some x }
    (s.mem.wf = true ∧ s.l1d.victim = some v ∧ 0x008000FF < v.addr ∧ v.addr + v.bytes.length ≤ 0x00800140 ∧
      s.inL2Ram v.addr = true ∧ v.bytes[63]? = some (some 1#8) ∧ ∀ i ∈ List.range 64, s.plat.isRom (v.addr + i) = false) ∧
    ((ramLine 0#16 true).addr .l1d s.l1dSets = 0x00800100 ∧ (ramLine 0#16 true).data.length = 64 ∧
      (ramLine 0#16 false).dirty = false ∧ (ramLine 0#16 true).dirty = true ∧ CohAction.wbinv ≠ .inv ∧ CohAction.wb ≠ .inv) ∧
    ((t [l2Line false]).l1d.victim = some w ∧ (t [l2Line false]).inL2Ram w.addr = false ∧
      (t [l2Line false]).region w.addr ≠ .l2CacheArea ∧ (t [l2Line false]).l2Lookup w.addr = some (l2Line false) ∧
      (t [l2Line false]).mem.wf = true) ∧
    ((t []).l2Lookup w.addr = none ∧ (t []).l2.out = none ∧ (t []).region w.addr ≠ .l2CacheArea ∧
      (o (t [])).l2.out = some x ∧ 0x8000007F < x.addr ∧ x.addr + x.bytes.length ≤ w.addr ∧
      ∀ u ∈ [t [], o (t [])], u.finishOut.emc.replies.head? ∈ [none, some .ok]) ∧
    ((l2Line true).addr .l2 (t []).l2Sets = 0x80000100 ∧ (l2Line true).dirty = true) ∧
    (56 / 4 = 14 ∧ 59 / 4 = 14 ∧ w.bytes[56]? = some (some 1#8) ∧ w.bytes[59]? = some (some 1#8) ∧ x.bytes[127]? = some (some 1#8)) ∧
    (let d := cachedL2 [l2Line true]
     let set := setOf .l2 d.l2Sets 0x80002100
     d.l2.out = none ∧ lineAt d.l2.lines set ((d.l2.order set).headD 0) = some (l2Line true)) ∧
    s.drainVictim.finishOut.emc.replies.head? ∈ [none, some .ok] := by decide

theorem witness_FinishedOperationReachesItsLines : (1#32).getLsbD 0 = true ∧
    (∀ r ∈ [CohReg.l1pinv, .l1dinv, .l1dwbinv, .l2inv, .l2wbinv], cohIsBlock r = false ∧ cohAction r ≠ .wb ∧ (actsOn r) ≠ []) ∧
    (∀ r ∈ [CohReg.l1dwb, .l2wb], cohIsBlock r = false ∧ cohAction r = .wb ∧ Block.l1d ∈ actsOn r) ∧
    (let s := (cachedL2 [l2Line true]).setL1d { (cachedL2 []).l1d with lines := [{ ramLine 0xFFFF#16 true with tag := 0x100000 }] }
     let t := (s.writeGlobal .l2wb 1#32).finishOps
     (lineAt (t.linesOf .l1d) 4 0).isSome = true ∧ (lineAt (t.linesOf .l2) 2 0).isSome = true) := by decide

/-- The second clause: no operation under way, and of the lines that `mixed` holds the range reaches the first and the last
word of one and just misses another; no dirty L1D line of the range lies in the L2 line in the last case. -/
theorem witness_FinishedOperationReachesItsLines_blocks :
    let u := mixed.drainVictim.finishOut
    let d : Line := { extLine 0#16 with dirty := true }
    (∀ x, mixed.opOf x = none) ∧ framesDistinct mixed.l2.lines = true ∧
    (lineAt u.l1d.lines 4 0 = some d ∧ lineAt u.l1d.lines 5 0 = some { d with set := 5 } ∧
      lineAt u.l2.lines 2 0 = some (l2Line true) ∧ lineAt u.l2.lines 2 1 = none ∧ (lineAt u.l1p.lines 8 0).isSome = true) ∧
    (Block.l1d ∈ actsOn .l1diwc ∧ cohAction .l1diwc ≠ .wb ∧ reaches u .l1diwc 0x8000013C 1 .l1d d ∧
      ¬reaches u .l1diwc 0x8000013C 1 .l1d { d with set := 5 }) ∧
    (Block.l2 ∈ actsOn .l2wwc ∧ cohAction .l2wwc = .wb ∧ reaches u .l2wwc 0x8000017C 1 .l2 (l2Line true) ∧
      ¬reaches u .l2wwc 0x80000180 1 .l2 (l2Line true) ∧ ¬reaches u .l2wwc 0x800000FC 1 .l2 (l2Line true)) ∧
    (Block.l1p ∉ actsOn .l2wwc ∧ Block.l2 ∉ actsOn .l1piwc ∧ cohBlock .l1piwc = .l1p ∧ cohIsBlock .l1piwc = true) ∧
    ∀ k ∈ (mixed.setL1d { mixed.l1d with lines := [extLine 0#16] }).l1d.lines, k.dirty = false := by
  refine ⟨fun x => by cases x <;> rfl, ?_⟩
  unfold reaches
  decide

/-- The third clause: an L1D frame still listed, none left, and the L2 frames listed and treated. -/
theorem witness_FinishedOperationReachesItsLines_steps :
    let op (fs : List Frame) (l : Bool) : CohOp :=
      { reg := .l2wwc, base := 0x80000100, words := 1, priv := .supervisor, todo := fs, loose := [], l2Listed := l }
    ∀ o ∈ [op [⟨.l1d, 4, 0⟩] false, op [] false, op [] true], (mixed.setOp .l2 (some o)).opOf .l2 = some o := by decide

/-- A step at a listed frame: its line in the range, its line past the range, and no line. -/
theorem witness_StartedOperationListsItsLines_frames :
    let o : CohOp := { reg := .l2wwc, base := 0x8000013C, words := 1, priv := .supervisor, loose := [], l2Listed := true
                       todo := [⟨.l1d, 4, 0⟩, ⟨.l1d, 5, 0⟩, ⟨.l2, 2, 1⟩, ⟨.l2, 2, 0⟩, ⟨.l1p, 8, 0⟩] }
    let s := mixed.setOp .l2 (some o)
    (s.opOf .l2 = some o ∧ o.todo[4]? = some ⟨.l1p, 8, 0⟩) ∧
    (∃ l ∈ s.l1d.lines, lineAt s.l1d.lines 4 0 = some l ∧ reaches s o.reg o.base o.words .l1d l) ∧
    (∃ l ∈ s.l1d.lines, lineAt s.l1d.lines 5 0 = some l ∧ ¬reaches s o.reg o.base o.words .l1d l) ∧
    lineAt s.l2.lines 2 1 = none ∧
    ∃ l ∈ s.l2.lines, lineAt s.l2.lines 2 0 = some l ∧ reaches s o.reg o.base o.words .l2 l := by
  unfold reaches
  decide

/-- The listing of the L2 frames and the completion: an L1D frame still listed, none left, and none at all. -/
theorem witness_StartedOperationListsItsLines :
    let op (fs : List Frame) (l : Bool) : CohOp :=
      { reg := .l2wb, base := 0, words := 0, priv := .supervisor, todo := fs, loose := [], l2Listed := l }
    let s (o : CohOp) := (cachedL2 [l2Line true]).setOp .l2 (some o)
    let v : Victim := { addr := 0x80000100, bytes := List.replicate 64 (some 1#8) }
    (∀ o ∈ [op [⟨.l1d, 4, 0⟩] false, op [⟨.l1p, 4, 0⟩] false, op [] false, op [] true], (s o).l2.op = some o ∧ o.todo.length ≤ 1) ∧
    (Block.l2 ∈ actsOn .l2wb ∧ ∃ l ∈ (s (op [] false)).l2.lines, l.set = 2 ∧ l.way = 0) ∧
    (State.reset.l1d.victim = none ∧ State.reset.l2.out = none) ∧
    ∀ o ∈ [op [] false, op [] true], covers o .l1d (some v) = true := by decide

/-- The cache of `frozenP`, not frozen. -/
def runningP : State := frozenP.setL1p { frozenP.l1p with oper := false }

/-- `s` with every L2 page asleep. -/
def asleep (s : State) : State := s.setL2 { s.l2 with sleep := Vector.replicate 4 true }

/-- A state whose L2 pages sleep, whose line at 00800100h L1D holds, or L1P, and which may prefetch there; the bytes below
00820000h are page 0's, not page 1's. -/
theorem witness_MarWritesAndPageSleep :
    let d := asleep (cachedD [ramLine 0xFFFF#16 false])
    let p := (asleep frozenP).setCpu { frozenP.cpu with lastFetch := some 0x008000E0 }
    d.region 0x00800104 = .l2Ram ∧ (d.l1dLookup 0x00800104).isSome = true ∧ d.l2.sleep[0] = true ∧ d.l2.sleep[1] = true ∧
    (d.plat.l2.pdPages[0]).has 0x00800104 = true ∧ (d.plat.l2.pdPages[1]).has 0x00800104 = false ∧
    p.region 0x00800100 = .l2Ram ∧ (p.l1pLookup 0x00800100).isSome = true ∧ p.mayPrefetch 0x00800100 = true ∧
    0x00800104 / 32 * 32 = 0x00800100 ∧ 0x00800104 < 0x100000000 ∧ p.l2.sleep[0] = true := by decide

/-- A load, a store and a fetch that hit in L1 wake page 0, and no other (spec/42_l2.md R336). -/
theorem test_hit_wakes_page :
    let d := asleep (cachedD [ramLine 0xFFFF#16 false])
    let woken := #v[false, true, true, true]
    (after (outcome (Except.map Prod.fst (d.loadPiece 0x00800104 4 false))) fun t => t.l2.sleep) = some woken ∧
    (after (outcome (d.storePiece 0x00800104 [1#8, 2#8, 3#8, 4#8] false)) fun t => t.l2.sleep) = some woken ∧
    (after (outcome ((asleep frozenP).fetchPacket 0x00800104)) fun t => t.l2.sleep) = some woken := by decide

theorem witness_PermittedFetchDeliversItsPacket_hits : 0x00800104 < 0x100000000 ∧ frozenP.l1p.oper = true ∧ frozenP.cpu.ahead = [] ∧
    frozenP.region 0x00E00100 = .l1pRam ∧
    (entryOf frozenP.l1p.mppa (frozenP.plat.l1p.page 0x00E00100)).getLsbD 3 = true ∧
    frozenP.region (0x00800104 / 32 * 32) = .l2Ram ∧ runningP.l1pLookup (0x00800104 / 32 * 32) = frozenP.l1pLookup (0x00800104 / 32 * 32) ∧
    (frozenP.l1pLookup (0x00800104 / 32 * 32)).map (fun l => (l.data, l.perm.getLsbD 3)) =
      some (List.replicate 32 0x33#8, true) ∧
    (after (outcome (frozenP.fetchPacket 0x00800104)) fun t => t.l1p) = some frozenP.l1p := by decide

/-- Misses in L2 RAM and in external memory: in the cache that is frozen, disabled (`State.reset` in mode 0) or neither. -/
theorem witness_PermittedFetchDeliversItsPacket_misses :
    (∀ s ∈ [frozenP, State.reset.setL1p { State.reset.l1p with mode := 0#3 }, runningP], ∀ b ∈ [0x00800200, 0x80000200],
      s.l1pLookup b = none ∧ (s.l2Perm b).getLsbD 3 = true ∧ s.cpu.ahead = [] ∧ (s.region b = .l2Ram ∨ s.region b = .external)) ∧
    (State.reset.setL1p { State.reset.l1p with mode := 0#3 }).l1pSets = 0 ∧ runningP.l1pSets ≠ 0 ∧ runningP.l1p.oper = false ∧
    runningP.inL2Ram 0x00800200 = true ∧ runningP.inL2Ram 0x80000200 = false ∧ runningP.l2Lookup 0x80000200 = none ∧
    runningP.mayAllocateL2 0x80000200 = false ∧ runningP.emc.fills = [] ∧ runningP.finishOut.emc.replies.head? ∈ [none, some .ok] ∧
    (cachedL2 [l2Line false]).l2Lookup 0x80000120 = some (l2Line false) := by decide

/-- A fetch that misses fills the line of its set; a second one hits it. -/
theorem test_fetch_allocates :
    let s := runningP.setMem { cells := [(0x00800200, 7#8)], lost := [] }
    (after (outcome (s.fetchPacket 0x00800208)) fun t => (t.reply, t.l1pLookup 0x00800200 |>.map Line.data)) =
      some (.packet (7#8 :: List.replicate 31 0#8), some (7#8 :: List.replicate 31 0#8)) := by decide

theorem witness_RecordFaultKeepsTheFirstFault : State.reset.plat.hasMp = true ∧ (State.reset.mp .l1d).fsr = 0#32 ∧
    (faulted 0x602#32).plat.hasMp = true ∧ ((faulted 0x602#32).mp .l2).fsr ≠ 0#32 ∧
    ((faulted 0x602#32).mp .l2).fsr.getLsbD 8 = false ∧ ((faulted 0x102#32).mp .l1p).fsr.getLsbD 8 = true := by decide

theorem witness_ProtectionWritesTakeEffect :
    let s := locked (fullLock false 0#32 7#32)
    let t := locked (fullLock true 7#32 7#32)
    let u := locked (fullLock true 7#32 8#32)
    (s.plat.hasMp = true ∧ s.cpu.priv = .supervisor ∧ s.mpL2.lock.lk = false ∧ t.mpL2.lock.lk = true) ∧
    (s.mpL2.lock.armed = true ∧ (∀ n : Fin 4, s.mpL2.lock.seen[n] = true) ∧ State.reset.mpL2.lock.armed = false) ∧
    (t.mpL2.lock.armed = true ∧ (∀ n : Fin 4, t.mpL2.lock.seen[n] = true) ∧
      ∀ n : Fin 4, n.val ∈ platKeys t.plat .l2 → t.mpL2.lock.tmp[n] = t.mpL2.lock.key[n]) ∧
    (1 ∈ platKeys u.plat .l1p ∧ u.mpL1P.lock.tmp[1] ≠ u.mpL1P.lock.key[1]) ∧
    (0xFFFFFFF8#32).toNat % 8 = 0 ∧ (1#32).toNat % 8 = 1 ∧ (2#32).toNat % 8 = 2 ∧ (0xB#32).toNat % 8 = 3 ∧
    (4#32).toNat % 8 = 4 ∧ (5#32).toNat % 8 = 5 ∧ (6#32).toNat % 8 = 6 ∧ (0xFFFFFFFF#32).toNat % 8 = 7 := by decide

theorem witness_LockSequenceEngagesAndDisengages : State.reset.plat.hasMp = true ∧ State.reset.cpu.priv = .supervisor ∧
    (∀ x ∈ [Block.l1p, .l1d, .l2], (State.reset.mp x).lock.lk = false) ∧
    ([3, 1, 0, 2] : List (Fin 4)).Perm [0, 1, 2, 3] ∧ ([0, 1, 2, 3] : List (Fin 4)).Perm [0, 1, 2, 3] := by decide

theorem witness_UserWritesToMemoryControllersAreRefused : userState.cpu.priv = .user ∧ userState.plat.hasMp = true := by decide

theorem witness_UserWritesElsewhereAreDropped : ∀ e ∈ [RegFaultEvent.none, .sysCmpa, .emcCmpa],
    (faultEvent e).mayWrite = false ∧ (faultEvent e).plat.regFaultEvent = e ∧ (faultEvent e).plat.hasAet = true := by decide

theorem witness_IdmaCountWritesSubmit :
    let t := transfer 0x00800000#32 0x00F00000#32 4 0 false
    ((channels .dest none none).idma0.stage = .dest ∧ (channels .dest none none).idma1.active = none) ∧
    ((channels .dest (some t) none).idma1.active ≠ none ∧ (channels .dest (some t) none).idma0.pending = none) ∧
    ((channels .dest (some t) (some t)).idma0.active ≠ none ∧ (channels .dest (some t) (some t)).idma1.pending ≠ none) ∧
    ((channels .source none none).idma0.stage ≠ .dest ∧ (channels .source none none).idma0.active = none) ∧
    ((channels .none (some t) none).idma1.stage ≠ .dest ∧ (channels .none (some t) none).idma1.pending = none) := by decide

/-- spec/43_idma.md R357, R364: the parameter registers in order make the count write submit; out of order it need not. -/
theorem test_idma_order :
    (after (runCommands [.idma0MaskWrite 0#32, .idma0SourceWrite 0x20#32, .idma0DestWrite 0x40#32] State.reset)
      fun t => t.idma0.stage) = some .dest ∧
    (after (runCommands [.idma0SourceWrite 0x20#32, .idma0MaskWrite 0#32, .idma0DestWrite 0x40#32] State.reset)
      fun t => t.idma0.stage) = some .none := by decide

/-- The premises the words of a transfer share, at its first and its last word. -/
def moves (s : State) (t : Xfer) (dst : Nat) : Bool :=
  decide (s.mem.wf = true ∧ s.idma1.active = some t ∧ t.count % 4 = 0 ∧ t.pos < t.count / 4 ∧
    t.dst.toNat / 4 * 4 + t.count ≤ 0x100000000 ∧ s.isLocal (t.dst.toNat / 4 * 4) = true ∧
    t.dst.toNat / 4 * 4 + 4 * t.pos = dst ∧ (∀ i ∈ List.range 4, s.plat.isRom (dst + i) = false) ∧ dst % 4 = 0)

theorem witness_IdmaStepMovesOneWord_fill :
    let t := transfer 0xDEADBEEF#32 0x00F00102#32 8 1 true
    let s := channels .none (some t) none
    moves s t 0x00F00104 = true ∧ t.fill = true ∧ s.region 0x00F00104 = .l1dRam ∧
    s.allows (entryOf s.l1d.mppa (s.plat.l1d.page 0x00F00104)) t.id t.priv .write false = true := by decide

theorem witness_IdmaStepMovesOneWord_copy :
    let t := transfer 0x00F00003#32 0x00E00001#32 8 0 false
    let s := channels .none (some t) none
    moves s t 0x00E00000 = true ∧ t.fill = false ∧ t.src.toNat / 4 * 4 + t.count ≤ 0x100000000 ∧
    s.isLocal (t.src.toNat / 4 * 4) = true ∧ s.region 0x00F00000 = .l1dRam ∧ s.region 0x00E00000 = .l1pRam ∧
    s.allows (entryOf s.l1d.mppa (s.plat.l1d.page 0x00F00000)) t.id t.priv .read false = true ∧
    s.allows (entryOf s.l1p.mppa (s.plat.l1p.page 0x00E00000)) t.id t.priv .write false = true := by decide

/-- A transfer from configuration space to L1D RAM with this mask, at its first word. -/
def configured (m : Word) : Xfer := { transfer 0x01C00000#32 0x00F00000#32 0 0 false with mask := m }

theorem witness_IdmaStepMovesOneWord_configuration :
    let t := configured 1#32
    let s := channels .none (some t) none
    (s.idma0.active = some t ∧ s.inCfg t.src.toNat ≠ s.inCfg t.dst.toNat ∧ s.idma0Ends t.src.toNat t.dst.toNat = true) ∧
    (t.src.toNat + 128 * (t.count + 1) ≤ 0x100000000 ∧ t.dst.toNat + 128 * (t.count + 1) ≤ 0x100000000 ∧
      t.pos < 32 * (t.count + 1) ∧ (t.dst.toNat + 4 * t.pos) % 4 = 0 ∧ (t.src.toNat + 4 * t.pos) % 4 = 0) ∧
    (t.mask.getLsbD (t.pos % 32) = true ∧ (configured 0xFFFFFFFE#32).mask.getLsbD (t.pos % 32) = false) ∧
    (s.region (t.src.toNat + 4 * t.pos) = .extCfg ∧ s.region (t.dst.toNat + 4 * t.pos) = .l1dRam ∧
      s.allows (entryOf s.l1d.mppa (s.plat.l1d.page (t.dst.toNat + 4 * t.pos))) t.id t.priv .write false = true ∧
      (∀ i ∈ List.range 4, s.plat.isRom (t.dst.toNat + 4 * t.pos + i) = false) ∧
      s.emc.replies.head? ∈ [none, some .ok]) := by decide

theorem witness_IdmaTransfersEnd :
    (let t := transfer 0x00800000#32 0x00F00000#32 0 0 false
     (channels .none (some t) none).idma1.active = some t ∧ t.count % 4 = 0 ∧ t.count / 4 ≤ t.pos) ∧
    (let t := transfer 0x01C00000#32 0x01C0FFE0#32 0 0 false
     let s := channels .none (some t) none
     s.idma0.active = some t ∧ s.inCfg t.src.toNat = true ∧ s.inCfg t.dst.toNat = true) ∧
    (let t := transfer 0x01C00000#32 0x00F00000#32 15 512 false
     let s := channels .none (some t) none
     s.idma0.active = some t ∧ s.inCfg t.src.toNat ≠ s.inCfg t.dst.toNat ∧ s.idma0Ends t.src.toNat t.dst.toNat = true ∧
     t.src.toNat + 128 * (t.count + 1) ≤ 0x100000000 ∧ t.dst.toNat + 128 * (t.count + 1) ≤ 0x100000000 ∧
     32 * (t.count + 1) ≤ t.pos) := by decide

theorem witness_EventReachesTheSelectedInput : ∀ e ∈ [4, 15], isPlatformEvent e = true ∧ 4 ≤ e ∧ e ≤ 15 ∧
    (doing [.event e]).agenda = .event e :: [] ∧ (doing [.event e]).intc.intsel e = e ∧
    (doing [.event e]).cpu.prevInt.getLsbD e = false ∧ (doing [.event e]).cpu.ifr.getLsbD e = false := by decide

/-- Each range of input numbers at its ends. -/
theorem witness_input_numbers : 4 ≤ 4 ∧ 4 ≤ 15 ∧ 15 ≤ 15 ∧ 3 < 4 ∧
    (State.reset.setCpu { Cpu.reset with ifr := 0x8010#16 }).cpu.ifr.getLsbD 4 = true ∧
    (State.reset.setCpu { Cpu.reset with ifr := 0x8010#16 }).cpu.ifr.getLsbD 15 = true ∧
    State.reset.cpu.ifr.getLsbD 4 = false := by decide

theorem witness_InterruptsNeedTheirEnables : ∀ k ∈ [4, 15],
    let s := State.reset.setCpu { Cpu.reset with ifr := 0x8010#16, ier := 0x8010#16, gie := true }
    s.cpu.ifr.getLsbD k ∧ s.cpu.ier.getLsbD k ∧ s.cpu.gie := by decide

theorem witness_ExceptionEntry : State.reset.cpu.gee = false ∧
    (State.reset.setCpu { Cpu.reset with gee := true, efr := ⟨true, false, false, false⟩ }).cpu.gee = true ∧
    (State.reset.setCpu { Cpu.reset with gee := true, efr := ⟨true, false, false, false⟩ }).cpu.efr.nmi ∧
    (let c := (State.reset.setCpu { Cpu.reset with gee := true, efr := ⟨false, false, false, true⟩ }).cpu
     c.gee = true ∧ c.efr.nmi = false ∧ c.efr.excep = false ∧ c.efr.internal = false) := by decide

theorem witness_OnlyTheFirstBusErrorIsRecorded : State.reset.emc.busErr.toNat / 2 ^ 29 = 0 ∧
    (State.reset.setEmc { State.reset.emc with busErr := 0x40000301#32 }).emc.busErr.toNat / 2 ^ 29 ≠ 0 := by decide

theorem witness_RefusedFetchDeliversNoPacket : ∀ p ∈ [Priv.supervisor, .user],
    let c := closed.setCpu { Cpu.reset with priv := p }
    let f := (frozenP.setL1p { frozenP.l1p with lines := frozenP.l1p.lines.map fun l => { l with perm := 0#16 } }).setCpu
      { Cpu.reset with priv := p }
    let m := (State.reset.setL2 { State.reset.l2 with mppa := Vector.replicate 64 0#32 }).setCpu { Cpu.reset with priv := p }
    let b := if p = .supervisor then 3 else 0
    (c.region (0x00E00010 / 32 * 32) = .l1pRam ∧ c.plat.hasMp = true ∧
      (entryOf c.l1p.mppa (c.plat.l1p.page (0x00E00010 / 32 * 32))).getLsbD b = false) ∧
    (f.region 0x00800100 = .l2Ram ∧ ∃ l ∈ f.l1p.lines, f.l1pLookup 0x00800100 = some l ∧ l.perm.getLsbD b = false) ∧
    (m.region 0x00800100 = .l2Ram ∧ m.l1pLookup 0x00800100 = none ∧ (m.l2Perm 0x00800100).getLsbD b = false) := by decide

theorem witness_EnabledInterruptWakesTheMegamodule :
    let idle (f e : BitVec 16) := State.reset.setCpu { Cpu.reset with idle := true, gie := true, ifr := f, ier := e }
    (idle 2#16 0#16).cpu.idle = true ∧ (idle 2#16 0#16).cpu.ifr.getLsbD 1 = true ∧
    ((idle 0x8000#16 0x8000#16).cpu.gie = true ∧ (idle 0x8000#16 0x8000#16).cpu.ifr.getLsbD 15 = true ∧
      (idle 0x8000#16 0x8000#16).cpu.ier.getLsbD 15 = true) ∧
    (idle 0x8000#16 0x7FF0#16).cpu.ifr.getLsbD 1 = false ∧
    ∀ k ∈ List.range 16, (idle 0x8000#16 0x7FF0#16).cpu.ifr.getLsbD k = false ∨
      (idle 0x8000#16 0x7FF0#16).cpu.ier.getLsbD k = false := by decide

theorem witness_SlaveDmaMovesItsBytes : oneByte.mem.wf = true ∧ closed.mem.wf = true ∧
    (7 < 2 ^ oneByte.plat.idWidth ∧ 0xFFFFFFF0 + (List.replicate 16 1#8).length ≤ 0x100000000 ∧ List.replicate 16 1#8 ≠ []) ∧
    (oneByte.region 0x00F0001D = .l1dRam ∧
      oneByte.allows (entryOf oneByte.l1d.mppa (oneByte.plat.l1d.page 0x00F0001D)) 6 .user .write false = true ∧
      (∀ i ∈ List.range 4, oneByte.plat.isRom (0x00F0001D + i) = false) ∧
      oneByte.allows (entryOf oneByte.l1d.mppa (oneByte.plat.l1d.page 0x00F0001D)) 6 .user .read false = true) ∧
    (oneByte.region 0x00E00000 = .l1pRam ∧
      oneByte.allows (entryOf oneByte.l1p.mppa (oneByte.plat.l1p.page 0x00E00000)) 5 .user .write false = true ∧
      withRom.plat.isRom 0x00E000FF = true ∧ withRom.plat.isRom 0x00E00100 = false) ∧
    (closed.region 0x00F07FFF = .l1dRam ∧ closed.region 0x00E00000 = .l1pRam ∧ ∀ k ∈ [Kind.read, .write],
      closed.allows (entryOf closed.l1d.mppa (closed.plat.l1d.page 0x00F07FFF)) 0 .supervisor k false = false ∧
      closed.allows (entryOf closed.l1p.mppa (closed.plat.l1p.page 0x00E00000)) 0 .supervisor k false = false) := by
  decide

theorem witness_SlaveDmaMovesItsBytes_L2 :
    let denied := State.reset.setL2 { State.reset.l2 with mppa := Vector.replicate 64 0#32 }
    let s := cachedD [ramLine 0xFFFF#16 true]
    let t := cachedD [ramLine 0xFFFF#16 false]
    (s.region 0x00800104 = .l2Ram ∧ s.plat.isRom 0x00800104 = false ∧
      s.allows (s.l2Perm 0x00800104) 3 .user .write false = true ∧ s.allows (s.l2Perm 0x00800104) 3 .user .read false = true ∧
      denied.region 0x00800104 = .l2Ram ∧ ∀ k ∈ [Kind.read, .write],
        denied.allows (denied.l2Perm 0x00800104) 3 .user k false = false) ∧
    ((s.drainVictim.wakePages 0x00800104).l1dLookup 0x00800104 = some (ramLine 0xFFFF#16 true) ∧
      (t.drainVictim.wakePages 0x00800104).l1dLookup 0x00800104 = some (ramLine 0xFFFF#16 false) ∧
      (t.drainVictim.wakePages 0x00800200).l1dLookup 0x00800200 = none) := by decide

theorem witness_L1dStoreThenLoad : oneByte.mem.wf = true ∧ oneByte.cpu.ahead = [] ∧
    ∀ a ∈ [(0x00F00008, 8), (0x00F0000D, 8), (0x00F0000D, 2), (0x00F0000C, 4), (0x00F0000E, 2), (0x00F07FFF, 1)],
      oneByte.region a.1 = .l1dRam ∧ (after (outcome ((oneByte.storeBytes a.1 (List.replicate a.2 1#8)))) fun _ => ()) = some () ∧
      oneByte.accessStop a.1 a.2 = none ∧ (∀ i ∈ List.range 8, oneByte.plat.isRom (a.1 + i) = false) ∧ ∀ k ∈ [Kind.read, .write],
        oneByte.allows (entryOf oneByte.l1d.mppa (oneByte.plat.l1d.page a.1)) oneByte.plat.cpuId oneByte.cpu.priv k true =
          true := by decide

/-- The ends of the ranges of the clauses: one aligned unit, two that end a quad-word, and the rest of a store. -/
theorem witness_L1dStoreThenLoad_ends : (unitLen 0x00F0000C 4 = 4 ∧ unitLen 0x00F0000E 2 = 2 ∧ unitLen 0x00F0000D 2 = 1 ∧
      unitLen 0x00F0000E 8 = 2 ∧ 0x00F00008 % 16 + 8 ≤ 16) ∧
    (let s := oneByte.setRest (some (.store 0x00F00010 (List.replicate 5 2#8)))
     s.cpu.rest = some (.store 0x00F00010 (List.replicate 5 2#8)) ∧ s.region 0x00F00010 = .l1dRam ∧
     (∀ i ∈ List.range 5, s.plat.isRom (0x00F00010 + i) = false) ∧
     s.allows (entryOf s.l1d.mppa (s.plat.l1d.page 0x00F00010)) s.plat.cpuId s.cpu.priv .write true = true) ∧
    (16 < 0x00F0000D % 16 + 8 ∧ 16 < 0x00F0000F % 16 + 2 ∧ 0x00F0000E % 16 + 2 ≤ 16) ∧
    (let s := oneByte.setRest (some (.load 0x00F00010 5 [1#8, 2#8, 3#8]))
     s.cpu.rest = some (.load 0x00F00010 5 [1#8, 2#8, 3#8]) ∧ s.region 0x00F00010 = .l1dRam ∧ 0x00F00010 % 16 + 16 ≤ 16 ∧
     s.cpu.ahead = [] ∧
     s.allows (entryOf s.l1d.mppa (s.plat.l1d.page 0x00F00010)) s.plat.cpuId s.cpu.priv .read true = true) := by decide

theorem witness_AccessesThroughTheCaches_hits :
    let s := cachedD [ramLine 0xFFFF#16 false]
    s.mem.wf = true ∧ s.l1dLookup 0x00800104 = some (ramLine 0xFFFF#16 false) ∧
    ∀ k ∈ [Kind.read, .write],
      s.allows (ramLine 0xFFFF#16 false).perm s.plat.cpuId s.cpu.priv k (s.inL2Ram 0x00800104) = true := by decide

/-- The denied loads: a hit on a line, and misses that a page denies, without an L1D cache and with one. -/
theorem witness_AccessesThroughTheCaches_denied :
    (let s := cachedD [ramLine 0#16 false]
     s.mem.wf = true ∧ s.l1dLookup 0x00800104 = some (ramLine 0#16 false) ∧
     s.allows (ramLine 0#16 false).perm s.plat.cpuId s.cpu.priv .read (s.inL2Ram 0x00800104) = false) ∧
    ∀ u ∈ [State.reset, cachedD []],
      let s := u.setL2 { u.l2 with mppa := Vector.replicate 64 0#32 }
      s.l1dLookup 0x00800104 = none ∧ s.l1d.victim = none ∧ s.l1d.wbuf = [] ∧
      s.allows (s.l2Perm 0x00800104) s.plat.cpuId s.cpu.priv .read (s.inL2Ram 0x00800104) = false ∧ s.l2.out = none ∧
      s.inL2Ram 0x00800104 = true ∧ State.reset.l1dAllocates 0x00800104 = false := by decide

theorem witness_AccessesThroughTheCaches_buffer :
    let s (es : List WbEntry) := State.reset.setL1d { State.reset.l1d with mode := 1#3, wbuf := es }
    let es := [entry 0x00800200, entry 0x00800300, entry 0x00800400]
    (∀ l ∈ [[], es], (s l).l1dLookup 0x00800402 = none ∧ (s l).l1d.victim = none) ∧
    ((s es).l1d.wbuf.getLast? = some (entry 0x00800400) ∧ (s es).merges (entry 0x00800400) 0x00800402 .supervisor = true) ∧
    ((s es).l1d.wbuf.length < 4 ∧ (s es).merges (entry 0x00800400) 0x00800412 .supervisor = false ∧ (s []).l1d.wbuf.length < 4) ∧
    (let f := s (es ++ [entry 0x80000203])
     4 ≤ f.l1d.wbuf.length ∧ f.merges (entry 0x80000203) 0x80000204 .supervisor = false ∧
     (entry 0x80000203).continues 0x80000204 .supervisor = true ∧ (entry 0x80000203).continues 0x80000205 .supervisor = false ∧
     (entry 0x8000020F).continues 0x80000210 .supervisor = false) ∧
    (let v := (s es).setL1d { (s es).l1d with victim := some { addr := 0x00800100, bytes := List.replicate 64 (some 1#8) } }
     v.l1dLookup 0x00800402 = none ∧ v.l1d.victim.isSome = true) ∧
    ((s es).l1d.wbuf = entry 0x00800200 :: [entry 0x00800300, entry 0x00800400] ∧ (s es).inL2Ram 0x00800200 = true ∧
      (∀ i ∈ List.range 16, (s es).plat.isRom ((entry 0x00800200).quad + i) = false) ∧
      (s es).allows ((s es).l2Perm 0x00800200) (s es).plat.cpuId .supervisor .write true = true) := by decide

theorem witness_AccessesThroughTheCaches_wakes : State.reset.region 0x00800104 = .l2Ram ∧
    State.reset.inL2Ram 0x00800104 = true ∧ State.reset.region 0x80000104 = .external ∧
    State.reset.inL2Ram 0x80000104 = false := by decide

theorem witness_AccessesThroughTheCaches_misses :
    (∀ s ∈ [State.reset, cachedD []], s.l1dLookup 0x00800104 = none ∧ s.l1d.victim = none ∧ s.l1d.wbuf = [] ∧
      s.inL2Ram 0x00800104 = true ∧ s.inL2Ram (0x00800104 / 64 * 64) = true ∧
      s.allows (s.l2Perm 0x00800104) s.plat.cpuId s.cpu.priv .read true = true) ∧
    State.reset.l1dAllocates 0x00800104 = false ∧ (cachedD []).l1dAllocates 0x00800104 = true := by decide

theorem witness_AccessesThroughTheCaches_L2 :
    let s := cachedL2 [l2Line false]
    let e := entry 0x80000104
    (s.inL2Ram 0x80000104 = false ∧ s.l2Lookup 0x80000104 = some (l2Line false)) ∧
    (s.inL2Ram 0x80000200 = false ∧ s.l2Lookup 0x80000200 = none ∧ s.mayAllocateL2 0x80000200 = true ∧
      (∀ k ∈ [AheadKind.loadFill, .fetchFill, .drainFill], s.aheadOf k = []) ∧
      s.finishOut.emc.replies.head? ∈ [none, some .ok]) ∧
    (let d := cachedL2 [l2Line true]
     let a := 0x80002100
     d.inL2Ram a = false ∧ d.l2Lookup a = none ∧ d.mayAllocateL2 a = true ∧ d.aheadOf .drainFill = [] ∧
     lineAt d.l2.lines (setOf .l2 d.l2Sets a) ((d.l2.order (setOf .l2 d.l2Sets a)).headD 0) = some (l2Line true) ∧
     (d.finishOut.extWriteLine ((l2Line true).out .l2 d.l2Sets)).emc.replies.head? ∈ [none, some .ok] ∧
     (l2Line true).dirty = true) ∧
    (s.region e.first = .external ∧ s.l2Lookup e.first = some (l2Line false) ∧
      s.allows (s.l2Perm e.first) s.plat.cpuId e.priv .write false = true) := by decide

/-- A read that L2 does not allocate, answered and failed, and a load that waits for a buffered write. -/
theorem witness_AccessesThroughTheCaches_uncached :
    let s := State.reset.setEmc { State.reset.emc with replies := [.error 3#4 1#3] }
    (∀ u ∈ [State.reset, s], u.inL2Ram 0x80000104 = false ∧ u.l2Lookup 0x80000104 = none ∧ u.mayAllocateL2 0x80000104 = false ∧
      u.aheadOf .loadFill = [] ∧ u.l1dLookup 0x80000104 = none ∧ u.l1d.victim = none ∧ u.l1d.wbuf = [] ∧
      u.l1dAllocates 0x80000104 = false ∧ u.allows (u.l2Perm 0x80000104) u.plat.cpuId u.cpu.priv .read false = true) ∧
    State.reset.finishOut.emc.replies.head? ∈ [none, some .ok] ∧ s.finishOut.emc.replies = .error 3#4 1#3 :: [] ∧
    (State.reset.setL1d { State.reset.l1d with wbuf := [entry 0x80000100] }).l1d.wbuf ≠ [] := by decide

theorem witness_DeniedStoreChangesNoData :
    (closed.region 0x00F00000 = .l1dRam ∧
      closed.allows (entryOf closed.l1d.mppa (closed.plat.l1d.page 0x00F00000)) 0 .supervisor .write true = false) ∧
    (let s := cachedD [ramLine 0#16 false]
     s.region 0x00800104 = .l2Ram ∧ s.l1dLookup 0x00800104 = some (ramLine 0#16 false) ∧
     s.allows (ramLine 0#16 false).perm s.plat.cpuId s.cpu.priv .write (s.inL2Ram 0x00800104) = false) ∧
    (let s := cachedD [extLine 0#16]
     s.region 0x80000104 = .external ∧ s.l1dLookup 0x80000104 = some (extLine 0#16) ∧
     s.allows (extLine 0#16).perm s.plat.cpuId s.cpu.priv .write (s.inL2Ram 0x80000104) = false) := by decide

theorem witness_DeniedStoreChangesNoData_buffered :
    let s := State.reset.setL2 { State.reset.l2 with mppa := Vector.replicate 64 0#32 }
    let u := { entry 0x80000104 with priv := .user }
    let t (ls : List Line) := { cachedL2 ls with plat := { Config.ref with extPerm := [(⟨0x80000000, 0x1000000⟩, 0xFF00#16)] } }
    (s.inL2Ram 0x00800200 = true ∧ s.allows (s.l2Perm 0x00800200) s.plat.cpuId .supervisor .write (s.inL2Ram 0x00800200) = false) ∧
    ((t [l2Line false]).region u.first = .external ∧ ((t [l2Line false]).l2Lookup u.first).isSome = true) ∧
    ((t []).region u.first = .external ∧ (t []).mayAllocateL2 u.first = true) ∧
    (t []).allows ((t []).l2Perm u.first) (t []).plat.cpuId u.priv .write ((t []).inL2Ram u.first) = false := by decide

theorem witness_GlobalResetRestoresTheRegisters : withRom.plat.isRom 0x00E000FF = true ∧ withRom.plat.l1p.has 0x00E000FF = true ∧
    ∀ a ∈ [0x80000000, 0x00840000, 0x00E08000, 0x00EFFFFF],
      oneByte.plat.l1p.has a = false ∧ oneByte.plat.l1d.has a = false ∧ oneByte.plat.l2.inPort0 a = false ∧
      oneByte.plat.l2.inPort1 a = false := by decide

/-- A state with a byte of memory, a buffered write and a transfer, and the store it then makes. -/
def working : State :=
  (oneByte.setL1d { oneByte.l1d with
      wbuf := [{ quad := 0x00800000, first := 0x00800000, bytes := [some 1#8], priv := .user }] }).setAgenda
    [.store 0x00F00004 4 7#64]

theorem witness_EveryStepKeepsTheInvariant : working.Inv ∧ ∃ t, step working = .next t :=
  ⟨⟨by decide, by decide, by decide, by decide, by decide, by decide, by decide, by decide, by decide,
    fun x => by cases x <;> rfl⟩, exists_next (by decide)⟩

theorem witness_StepTakesOneActionAndKeepsThePlatform : ∃ t, step working = .next t := exists_next (by decide)

theorem witness_PrivilegeChangesOnlyByTheCpu : (∃ t, step working = .next t) ∧
    working.agenda.head? = some (.store 0x00F00004 4 7#64) := ⟨exists_next (by decide), rfl⟩

theorem witness_UserCommandsKeepSupervisorState : userState.mayWrite = false ∧
    (∃ t, exec (.l1pcfgWrite 4#32) userState = .next t) ∧ ∃ t, exec (.l1pccWrite 1#32) userState = .next t :=
  ⟨rfl, exists_next (by decide), exists_next (by decide)⟩

theorem witness_OnlyCacheCommandsMoveData : ¬ movesCacheData (.evtsetWrite 0 0x10#32) ∧
    ∃ t, exec (.evtsetWrite 0 0x10#32) State.reset = .next t :=
  ⟨by simp [movesCacheData, cacheRegs, Reg.write], exists_next (by decide)⟩

theorem witness_AbsentRegistersAreRefused : noMp.plat.hasMp = false ∧ noAet.plat.hasAet = false ∧
    Reg.l1pmpfsr ∈ [Reg.l1pmpfar, .l1pmpfsr] := by decide

/-! ### Single steps (expected values: spec/95_test_vectors.md) -/

/-- V41: events 0 to 3 cannot be set, event 13 is, and it reaches CPUINT13 (reset selects 13 there). -/
theorem test_evtset : (after (step (doing [.command [0x01800020#32, 1#32, 0x0000200F#32]])) fun t =>
    (t.intc.evtFlag[0], t.cpu.ifr)) = some (0x00002000#32, 0x2000#16) := by decide

/-- V42: a flag is cleared where the value has a 1. -/
theorem test_evtclr : (after (runCommands [.evtsetWrite 3 0x80000001#32, .evtclrWrite 3 1#32] State.reset) fun t =>
    t.intc.evtFlag[3]) = some 0x80000000#32 := by decide

/-- V45: bit 7 of each selector is reserved. -/
theorem test_intmux : (after (runCommands [.intmuxWrite 1 0xFFFFFFFF#32, .intmuxRead 1] State.reset) State.reply) =
    some (.word 0x7F7F7F7F#32) := by decide

/-- V8: the bits above the mode are ignored. -/
theorem test_l1pcfg : (after (runCommands [.l1pcfgWrite 0xFFFFFFFB#32, .l1pcfgRead] State.reset) State.reply) =
    some (.word 3#32) := by decide

/-- V9: a user write of `L1PCFG` keeps the mode and records a local user write at 01840020h with event 120. -/
theorem test_l1pcfg_user : (after (exec (.l1pcfgWrite 4#32) userState) fun t =>
    (t.l1p.mode, t.mpL1P.far, t.mpL1P.fsr, t.intc.evtFlag[3])) = some (0#3, 0x01840020#32, 0x00000102#32, 0x01000000#32) := by
  decide

/-- V1: three writes of `L1PCC`. -/
theorem test_l1pcc : (after (runCommands [.l1pccWrite 1#32, .l1pccWrite 1#32, .l1pccWrite 0#32, .l1pccRead] State.reset)
    State.reply) = some (.word 0x00010000#32) := by decide

/-- V20: `L2CFG` holds the mode and bit 3. -/
theorem test_l2cfg : (after (runCommands [.l2cfgWrite 0xA#32, .l2cfgRead] State.reset) State.reply) = some (.word 0xA#32) := by
  decide

/-- V22: `MAR128` takes bit 0, and `MAR0` reads 1 whatever is written. -/
theorem test_mar : (after (runCommands [.marWrite 0 0#32, .marWrite 128 0xFFFFFFFF#32] State.reset) fun t =>
    (t.marPc 0, t.marPc 1, t.marPc 128)) = some (true, false, true) := by decide

/-- V36: bits 4:0 of `IDMA0_SOURCE` are reserved. -/
theorem test_idma0Source : (after (runCommands [.idma0SourceWrite 0x00801234#32, .idma0SourceRead] State.reset) State.reply) =
    some (.word 0x00801220#32) := by decide

/-- V70: the reserved bits of `CPUARBU` read 0. -/
theorem test_cpuarbu : (after (runCommands [.cpuarbuWrite 0xFFFFFFFF#32, .cpuarbuRead] State.reset) State.reply) =
    some (.word 0x0007003F#32) := by decide

/-- V71: `PDCCMD` with `MEGPD`. -/
theorem test_pdccmd : (after (runCommands [.pdccmdWrite 0x00010000#32, .pdccmdRead] State.reset) State.reply) =
    some (.word 0x0001FFFF#32) := by decide

/-- V58: the reserved bits of `L1DMPPA31` read 0. -/
theorem test_l1dmppa : (after (runCommands [.l1dmppaWrite 31 0xFFFFFFFF#32, .l1dmppaRead 31] State.reset) State.reply) =
    some (.word 0x0000FF36#32) := by decide

/-- V56: a key word without `KEYR` is a fault at the key register. -/
theorem test_l2mplk : (after (exec (.l2mplkWrite 0 1#32) State.reset) fun t => (t.mpL2.far, t.mpL2.fsr)) =
    some (0x0184A100#32, 0x00000110#32) := by decide

/-- V52: a slave DMA write that the page denies records ID 3 and user write, and stores nothing. -/
theorem test_sdmaWrite : (after (step ((State.reset.setL2 { State.reset.l2 with
    mppa := State.reset.l2.mppa.set 0 0x0000FF24#32 }).setAgenda [.sdmaWrite 3 .user 0x00801000 [1#8, 2#8, 3#8, 4#8]])) fun t =>
    (t.mpL2.far, t.mpL2.fsr, t.mem.cells)) = some (0x00801000#32, 0x00000602#32, []) := by decide

/-- U9: a double-word access that touches configuration space is refused wherever it lies in a quad-word. -/
theorem test_cfg_width : (match cpuLoad 0x01C0000C 8 State.reset with
    | .refused r => decide (r = .accessWidth 0x01C0000C 8)
    | .next _ => false
    | .fault _ => false) = true := by decide

/-- spec/60_exceptions.md R535: an event in two steps after each other is one edge, so no drop. -/
theorem test_held_pulse : (after (match step (doing [.event 15, .event 15]) with
    | .next t => step t
    | .fault f => .fault f
    | .refused r => .refused r) fun t => (t.cpu.ifr, t.intc.intXStat)) = some (0x8000#16, 0#32) := by decide

/-- spec/47_pdc_misc.md R501 (c): a cache that is disabled is powered down, one that is enabled is not. -/
theorem test_disabled_cache : (after (exec (.l1pcfgWrite 0#32) State.reset) fun t => t.pdc.l1pAsleep) = some true ∧
    (after (exec (.l1pcfgWrite 4#32) State.reset) fun t => t.pdc.l1pAsleep) = some false := by decide

/-- spec/20_memory.md R108: a nonaligned half-word store is made of two steps, so one of its bytes can be seen without the
other. -/
theorem test_nonaligned_half : (after (step (doing [.store 0x00F00005 2 0x0201#64])) fun t => (t.mem.cells, t.cpu.rest)) =
      some ([(0x00F00005, 1#8)], some (.store 0x00F00006 [2#8])) ∧
    (match step (doing [.store 0x00F00005 2 0x0201#64, .accessMore]) with
      | .next t => after (step t) fun u => (u.mem.cells, u.cpu.rest)
      | .fault _ => none
      | .refused _ => none) = some ([(0x00F00005, 1#8), (0x00F00006, 2#8)], none) := by decide

/-- spec/20_memory.md R108: a load that crosses a quad-word is made of two steps, between which other agents may write. -/
theorem test_crossing_load :
    (after (step (oneByte.setAgenda [.load 0x00F0000F 2])) fun t => (t.reply, t.cpu.rest)) =
      some (.none, some (.load 0x00F00010 1 [0#8])) ∧
    (match step (oneByte.setAgenda [.load 0x00F0000F 2, .sdmaWrite 3 .supervisor 0x00F00010 [9#8], .accessMore]) with
      | .next t => match step t with
        | .next u => after (step u) fun w => (w.reply, w.cpu.rest)
        | .fault _ => none
        | .refused _ => none
      | .fault _ => none
      | .refused _ => none) = some (.data [0#8, 9#8], none) := by decide

/-- spec/20_memory.md R121, R123, spec/41_l1d.md R237: an older copy of a line on its way reaches L2 RAM before the line. -/
theorem test_older_copy_goes_first :
    let v : Victim := { addr := 0x00800100, bytes := List.replicate 8 (some 1#8) }
    let l := { ramLine 0xFFFF#16 true with data := List.replicate 8 0x11#8 }
    let s := (cachedD [l]).setL1d { (cachedD [l]).l1d with victim := some v }
    ∀ c ∈ [CohAction.wb, .wbinv], (s.treatL1d c l).l1d.victim = none ∧ (s.treatL1d c l).drainVictim.mem.read 0x00800104 = 0x11#8 := by decide

/-- spec/42_l2.md R302, R309: an operation of L2 whose list is empty writes a line out that reaches L2 late. -/
theorem test_late_victim_goes_out :
    let v : Victim := { addr := 0x80000100, bytes := List.replicate 4 (some 1#8) }
    let s := ((cachedL2 [{ l2Line false with data := List.replicate 8 0x44#8 }]).setL1d
        { (cachedL2 []).l1d with victim := some v }).setOp .l2
      (some { reg := .l2wb, base := 0, words := 0, priv := .supervisor, todo := [], loose := [], l2Listed := true })
    (s.cohStep .l2 0).l2.op = none ∧ (s.cohStep .l2 0).l2.lines.map Line.dirty = [false] ∧
      (s.cohStep .l2 0).mem.read 0x80000103 = 1#8 := by decide

/-- spec/42_l2.md R310: an L2 line that is allocated before the L1D lines are treated is listed after them. -/
theorem test_l2_lines_listed_after_l1d :
    let s := (cachedL2 []).setL1d { (cachedL2 []).l1d with lines := [{ ramLine 0xFFFF#16 true with tag := 0x100000 }] }
    let t := (s.finishOps.startOp .l2wbinv 0 0)
    let u := (t.setL2 { t.l2 with lines := [l2Line false] }).cohStep .l2 0
    (t.l2.op.map CohOp.todo) = some [⟨.l1d, 4, 0⟩] ∧ u.l1d.lines = [] ∧ u.l2.lines.map Line.dirty = [true] ∧
    ((u.cohStep .l2 0).l2.op.map CohOp.todo) = some [⟨.l2, 2, 0⟩] ∧
    (((u.cohStep .l2 0).cohStep .l2 0).cohStep .l2 0).l2.lines = [] ∧
    (((u.cohStep .l2 0).cohStep .l2 0).cohStep .l2 0).l2.op = none := by decide

/-- spec/60_exceptions.md R523: a denied load miss leaves the L2 lines and their order as they are. -/
theorem test_denied_miss_allocates_nothing :
    let s := { cachedL2 [l2Line true] with plat := { Config.ref with extPerm := [(⟨0x80000000, 0x1000000⟩, 0#16)] } }
    let t := (s.loadCached 0x80002100 4 false).1
    t.l2.lines = s.l2.lines ∧ t.l2.lru = [] ∧ t.l2.out = none ∧ t.l1d.lines = [] ∧ t.mpL1D.fsr ≠ 0#32 ∧
      s.missOf (some (.load 0x80002100 4)) = none := by decide

/-- spec/42_l2.md R286, spec/20_memory.md R131: no unit of a new line is read before the way it takes has been emptied. -/
theorem test_eviction_before_fill :
    let s := cachedL2 [{ l2Line true with data := List.replicate 8 0x44#8 }]
    (s.readAhead .fetchFill 0x80002100 4).emc.fills = [] ∧
    (((s.l2Evict 0x80002100).readAhead .fetchFill 0x80002100 4).emc.fills = []) ∧
    ((s.l2Evict 0x80002100).finishOut.readAhead .fetchFill 0x80002100 4).emc.fills =
      [⟨.fetchFill, 0x80002100, List.replicate 4 0#8⟩] := by decide

/-- spec/70_reset_and_hazards.md R584: a unit of external memory read ahead for a fill is read again once the megamodule has
written it, and kept while others write. -/
theorem test_fill_after_own_write :
    let s := State.reset.setEmc { State.reset.emc with fills := [⟨.loadFill, 0x80000100, [1#8, 2#8, 3#8, 4#8]⟩] }
    ((s.busWrite .mdmaWrite 0x80000103 1 0x80000100 [none, none, none, some 9#8] .user 0).emc.fills = []) ∧
    ((s.busWrite .mdmaWrite 0x80000104 1 0x80000100 [none, none, none, none, some 9#8] .user 0).emc.fills = s.emc.fills) ∧
    (s.extRead .loadFill 0x80000100 8 .user).2 = [1#8, 2#8, 3#8, 4#8, 0#8, 0#8, 0#8, 0#8] ∧
    (s.extRead .fetchFill 0x80000100 8 .user).2 = List.replicate 8 0#8 := by decide

/-- spec/20_memory.md R130 items 1 and 4: a load reads no external memory while a write is buffered; a fetch may. -/
theorem test_read_waits_for_buffer :
    let s := State.reset.setL1d { State.reset.l1d with wbuf := [entry 0x80000100] }
    (s.readAhead .loadFill 0x80000100 4).emc.fills = [] ∧ (s.readAhead .load 0x00800100 4).cpu.ahead = [] ∧
    (State.reset.readAhead .loadFill 0x80000100 4).emc.fills = [⟨.loadFill, 0x80000100, List.replicate 4 0#8⟩] := by decide

/-- spec/20_memory.md R112, R140: a failed read keeps no unit that its access has read ahead inside the megamodule. -/
theorem test_failed_read_drops_units :
    let s := (State.reset.setEmc { State.reset.emc with replies := [.error 3#4 1#3] }).setCpu
      { Cpu.reset with ahead := [⟨.load, 0x80000100, [1#8, 2#8, 3#8, 4#8]⟩] }
    (s.extRead .loadFill 0x80000100 8 .user).1.cpu.ahead = [] ∧ s.cpu.ahead ≠ [] := by decide

/-- spec/20_memory.md R108: a victim reaches external memory word by word, and an evicted L2 line too. -/
theorem test_lines_go_by_words :
    let v : Victim := { addr := 0x80000100, bytes := List.replicate 64 (some 1#8) }
    let s := State.reset.setL1d { State.reset.l1d with victim := some v }
    let d := State.reset.setL2 { State.reset.l2 with out := some v }
    (s.victimWord 15).mem.cells = [0x8000013C, 0x8000013D, 0x8000013E, 0x8000013F].map (fun a => (a, 1#8)) ∧
    (d.outWord 15).mem.cells = (s.victimWord 15).mem.cells := by decide

/-- The eviction belongs to the load that needs the room, and the CPU makes no other step before that load ends. -/
theorem test_evict_issues : (after (step ((cachedL2 [l2Line true]).setAgenda [.evict (some (.load 0x80002100 4))])) fun t =>
    (t.cpu.issued, t.l2.out.map Victim.addr, t.mayIssue none, t.mayIssue (some (.load 0x80002100 4)))) =
      some (some (.load 0x80002100 4), some 0x80000100, false, true) := by decide

/-- spec/42_l2.md R308, R312: a block writeback of the word at 8000013Ch writes back the L1D and L2 lines that hold it and
leaves them valid; the L1D line past it stays dirty, and L1P is not touched. -/
theorem test_block_writeback :
    (after (exec (.l2wwcWrite 1#32) (mixed.setBar .l2wwc ⟨0x8000013C#32, true⟩)) fun t =>
      let e := t.finishOps
      (e.l1d.lines.map fun l => (l.set, l.dirty), e.l2.lines.map Line.dirty, e.l1p.lines.length)) =
    some ([(4, false), (5, true)], [false], 1) := by decide

/-- spec/42_l2.md R308, R314: a block invalidate of 80000080h to 80000103h drops the lines of the three caches that hold the
word at 80000100h, without writeback, and leaves the L1D line past it. -/
theorem test_block_invalidate :
    (after (exec (.l2iwcWrite 33#32) (mixed.setBar .l2iwc ⟨0x80000080#32, true⟩)) fun t =>
      let e := t.finishOps
      (e.l1d.lines.map fun l => (l.set, l.dirty), e.l2.lines.length, e.l1p.lines.length, e.mem.cells.length)) =
    some ([(5, true)], 0, 0, 0) := by decide

/-- spec/40_l1p.md R178, spec/41_l1d.md R230: the largest cache is 32K unless region 1 is 16K. -/
theorem test_largest_cache : platLegal { Config.ref with l1d := { Config.ref.l1d with maxCache := 0x1000 } } = false ∧
    Config.ref.l1d.cacheSize 3#3 = 0x4000 ∧ Config.ref.l1d.cacheSize 7#3 = 0x8000 := by decide

/-- spec/93_implementation_defined.md U2: a store across the end of the ROM changes only the bytes past it. -/
theorem test_rom_bytes : (withRom.putBytes 0x00E000FE [1#8, 2#8, 3#8, 4#8]).mem.cells =
    [(0x00E00100, 3#8), (0x00E00101, 4#8)] := by decide

/-- spec/42_l2.md R335: the pages of a port are halves of it, either of them lower. -/
theorem test_pagesLegal : ([(⟨0, 0x20000⟩, ⟨0x20000, 0x20000⟩), (⟨0x20000, 0x20000⟩, ⟨0, 0x20000⟩)] : List (Span × Span)).all
      (fun q => pagesLegal 0 0x40000 q.1 q.2) = true ∧
    ([(⟨0, 0x1000⟩, ⟨0x1000, 0x3F000⟩), (⟨0, 0x10000⟩, ⟨0x10000, 0x30000⟩), (⟨0, 0⟩, ⟨0, 0x40000⟩)] : List (Span × Span)).all
      (fun q => !pagesLegal 0 0x40000 q.1 q.2) = true := by decide

/-- A fetch ahead of execution does nothing where a fetch is not described (notes/assumptions/19.md); a fetch there stops. -/
theorem test_prefetch_outside :
    let s := State.reset.setCpu { Cpu.reset with lastFetch := some 0x00EFFFE0 }
    (after (outcome (s.prefetchPacket 0x00F00000)) fun t => (t.mem.cells, t.l1p.lines, t.reply)) = some ([], [], s.reply) ∧
    (after (outcome (s.fetchPacket 0x00F00000)) fun _ => ()) = none := by decide

/-- A command placed by `withFetchWord` is the first to run: the read of `EVTMASK0` after reset (spec/45_intc.md R418). -/
theorem test_withFetchWord : (after (step (State.reset.withFetchWord 32 0x01800080)) State.reply) =
    some (.word 0x0000000F#32) := by decide

end Sys2Proof.Tests
end

/-!
PROOFS. The freeze registers `L1PCC` and `L1DCC` (spec/40_l1p.md R183, R184; spec/41_l1d.md R235, R236).
-/
namespace Sys2Proof.Proofs.L1p
open Sys2Proof Sys2Proof.Machine

/-! ### One write -/

theorem l1pccWrite_next (s : State) (v : Word) :
    exec (.l1pccWrite v) s =
      .next { s with l1p := { s.l1p with poper := s.l1p.oper, oper := v.getLsbD 0 }, reply := .none } :=
  exec_l1pccWrite s v

theorem l1dccWrite_next (s : State) (v : Word) :
    exec (.l1dccWrite v) s =
      .next { s with l1d := { s.l1d with poper := s.l1d.oper, oper := v.getLsbD 0 }, reply := .none } :=
  exec_l1dccWrite s v

/-! ### A write and the read after it -/

/-- A command that has a next state, then one that answers `x` there: the reply of the two in turn is `x`. -/
theorem run_then_answer {i r : Instr} {s u : State} {x : Word} (hi : exec i s = .next u) (hr : exec r u = u.answer x) :
    ∃ t, runCommands [i, r] s = .next t ∧ t.reply = .word x := by
  refine ⟨u.setReply (.word x), ?_, rfl⟩
  rw [run_cons _ _ _ _ hi, run_cons _ _ _ _ hr, runCommands]

/-- POPER reads as the OPER before the write, OPER as bit 0 of what was written. -/
theorem l1pcc_write_read (s : State) (v : Word) :
    ∃ t, runCommands [.l1pccWrite v, .l1pccRead] s = .next t ∧
      t.reply = .word (bitAt 16 s.l1p.oper ||| bitAt 0 (v.getLsbD 0)) :=
  run_then_answer (l1pccWrite_next s v) (exec_l1pccRead _)

theorem l1dcc_write_read (s : State) (v : Word) :
    ∃ t, runCommands [.l1dccWrite v, .l1dccRead] s = .next t ∧
      t.reply = .word (bitAt 16 s.l1d.oper ||| bitAt 0 (v.getLsbD 0)) :=
  run_then_answer (l1dccWrite_next s v) (exec_l1dccRead _)

/-- With one more write in front, the two bits are those of the last two values, whatever the state before them. -/
theorem l1pcc_write_write_read (s : State) (v w : Word) :
    ∃ t, runCommands [.l1pccWrite v, .l1pccWrite w, .l1pccRead] s = .next t ∧
      t.reply = .word (bitAt 16 (v.getLsbD 0) ||| bitAt 0 (w.getLsbD 0)) := by
  rw [run_cons _ _ _ _ (l1pccWrite_next s v)]
  exact l1pcc_write_read _ w

theorem l1dcc_write_write_read (s : State) (v w : Word) :
    ∃ t, runCommands [.l1dccWrite v, .l1dccWrite w, .l1dccRead] s = .next t ∧
      t.reply = .word (bitAt 16 (v.getLsbD 0) ||| bitAt 0 (w.getLsbD 0)) := by
  rw [run_cons _ _ _ _ (l1dccWrite_next s v)]
  exact l1dcc_write_read _ w

/-! ### The statement -/

/-- Settles O17: the equation of each write, and the examples as uses of the readback of the last one or two writes. -/
theorem freezeWritesMoveOperToPoper : Obligations.FreezeWritesMoveOperToPoper := by
  unfold Obligations.FreezeWritesMoveOperToPoper
  refine ⟨fun s v => ⟨l1pccWrite_next s v, l1dccWrite_next s v⟩, ?_⟩
  simp only [List.forall_mem_cons]
  refine ⟨?one, ?two, ?three, ?l1d, fun _ h => absurd h List.not_mem_nil⟩
  case one => exact l1pcc_write_read State.reset 1#32
  case two => exact l1pcc_write_write_read State.reset 1#32 1#32
  case three =>
    rw [run_cons _ _ _ _ (l1pccWrite_next State.reset 1#32)]
    exact l1pcc_write_write_read _ 1#32 0#32
  case l1d => exact l1dcc_write_write_read State.reset 1#32 0#32

end Sys2Proof.Proofs.L1p

/-!
PROOFS. The permission check of the memory protection architecture (spec/46_mpa.md R471, R472).
-/
namespace Sys2Proof.Proofs.Mpa
open Sys2Proof Sys2Proof.Machine

/-- The place of the allowed-ID bit in a permission entry: LOCAL, AID0 to AID5, or AIDX. -/
def idBit (id : Nat) (isLocal : Bool) : Nat :=
  if isLocal then 8 else if id ≤ 5 then 10 + id else 9

/-- The allowed-ID check reads one bit of the entry, in each of its three cases. -/
theorem idAllowed_eq_getLsbD (e : BitVec 16) (id : Nat) (isLocal : Bool) :
    idAllowed e id isLocal = e.getLsbD (idBit id isLocal) := by
  unfold idAllowed idBit
  rw [apply_ite e.getLsbD, apply_ite e.getLsbD]

/-- The check is the conjunction of two bits of the entry, so no other bit has a say in it. -/
theorem permitted_iff (e : BitVec 16) (id : Nat) (p : Priv) (k : Kind) (isLocal : Bool) :
    permitted e id p k isLocal = true ↔
      e.getLsbD (idBit id isLocal) = true ∧ e.getLsbD (typeBit p k) = true := by
  rw [permitted, Bool.and_eq_true, idAllowed_eq_getLsbD]

/-- A clear allowed-ID bit refuses the access, whatever its privilege and kind. -/
theorem permitted_eq_false_of_idBit {e : BitVec 16} {id : Nat} {isLocal : Bool} (p : Priv) (k : Kind)
    (h : e.getLsbD (idBit id isLocal) = false) : permitted e id p k isLocal = false := by
  rw [permitted, idAllowed_eq_getLsbD, h, Bool.false_and]

/-- A clear bit of its privilege and kind refuses the access, whoever makes it. -/
theorem permitted_eq_false_of_typeBit {e : BitVec 16} {p : Priv} {k : Kind} (id : Nat) (isLocal : Bool)
    (h : e.getLsbD (typeBit p k) = false) : permitted e id p k isLocal = false := by
  rw [permitted, h, Bool.and_false]

/-- Settles O29: `permitted_iff` with the two places written out, and the four values of the rule's example (an entry with
AID0, SR and UR), each by the bit that decides it: both set, UW clear, LOCAL clear, AIDX clear. -/
theorem permittedNeedsBothBits : Obligations.PermittedNeedsBothBits := by
  unfold Obligations.PermittedNeedsBothBits
  refine ⟨permitted_iff, ?aid0_ur, ?uw, ?loc, ?aidx⟩
  case aid0_ur => exact (permitted_iff _ _ _ _ _).mpr ⟨by decide, by decide⟩
  case uw => exact permitted_eq_false_of_typeBit 0 false (by decide)
  case loc => exact permitted_eq_false_of_idBit .supervisor .read (by decide)
  case aidx => exact permitted_eq_false_of_idBit .user .read (by decide)

end Sys2Proof.Proofs.Mpa

/-!
PROOFS. Decoding and encoding of register commands (spec/30_encoding.md R152 to R154): an address names one register and
a register has one address, so the three words of a command and the command determine each other.
-/
namespace Sys2Proof.Proofs.Encoding
open Sys2Proof Sys2Proof.Machine Sys2Proof.Laws.Encoding

/-! ### Every instruction is the read or the write of one register -/

theorem instr_statement : ∀ i : Instr, Statement i
  | .evtflagRead n => evtflagRead n
  | .evtflagWrite n v => evtflagWrite n v
  | .evtsetRead n => evtsetRead n
  | .evtsetWrite n v => evtsetWrite n v
  | .evtclrRead n => evtclrRead n
  | .evtclrWrite n v => evtclrWrite n v
  | .evtmaskRead n => evtmaskRead n
  | .evtmaskWrite n v => evtmaskWrite n v
  | .mevtflagRead n => mevtflagRead n
  | .mevtflagWrite n v => mevtflagWrite n v
  | .expmaskRead n => expmaskRead n
  | .expmaskWrite n v => expmaskWrite n v
  | .mexpflagRead n => mexpflagRead n
  | .mexpflagWrite n v => mexpflagWrite n v
  | .intmuxRead n => intmuxRead n
  | .intmuxWrite n v => intmuxWrite n v
  | .intxstatRead => intxstatRead
  | .intxstatWrite v => intxstatWrite v
  | .intxclrRead => intxclrRead
  | .intxclrWrite v => intxclrWrite v
  | .intdmaskRead => intdmaskRead
  | .intdmaskWrite v => intdmaskWrite v
  | .aegmuxRead n => aegmuxRead n
  | .aegmuxWrite n v => aegmuxWrite n v
  | .pdccmdRead => pdccmdRead
  | .pdccmdWrite v => pdccmdWrite v
  | .mmRevidRead => mmRevidRead
  | .mmRevidWrite v => mmRevidWrite v
  | .idma0StatRead => idma0StatRead
  | .idma0StatWrite v => idma0StatWrite v
  | .idma1StatRead => idma1StatRead
  | .idma1StatWrite v => idma1StatWrite v
  | .idma0MaskRead => idma0MaskRead
  | .idma0MaskWrite v => idma0MaskWrite v
  | .idma0SourceRead => idma0SourceRead
  | .idma0SourceWrite v => idma0SourceWrite v
  | .idma0DestRead => idma0DestRead
  | .idma0DestWrite v => idma0DestWrite v
  | .idma0CountRead => idma0CountRead
  | .idma0CountWrite v => idma0CountWrite v
  | .idma1SourceRead => idma1SourceRead
  | .idma1SourceWrite v => idma1SourceWrite v
  | .idma1DestRead => idma1DestRead
  | .idma1DestWrite v => idma1DestWrite v
  | .idma1CountRead => idma1CountRead
  | .idma1CountWrite v => idma1CountWrite v
  | .cpuarbeRead => cpuarbeRead
  | .cpuarbeWrite v => cpuarbeWrite v
  | .idmaarbeRead => idmaarbeRead
  | .idmaarbeWrite v => idmaarbeWrite v
  | .sdmaarbeRead => sdmaarbeRead
  | .sdmaarbeWrite v => sdmaarbeWrite v
  | .mdmaarbeRead => mdmaarbeRead
  | .mdmaarbeWrite v => mdmaarbeWrite v
  | .cpuarbuRead => cpuarbuRead
  | .cpuarbuWrite v => cpuarbuWrite v
  | .idmaarbuRead => idmaarbuRead
  | .idmaarbuWrite v => idmaarbuWrite v
  | .sdmaarbuRead => sdmaarbuRead
  | .sdmaarbuWrite v => sdmaarbuWrite v
  | .ucarbuRead => ucarbuRead
  | .ucarbuWrite v => ucarbuWrite v
  | .cpuarbdRead => cpuarbdRead
  | .cpuarbdWrite v => cpuarbdWrite v
  | .idmaarbdRead => idmaarbdRead
  | .idmaarbdWrite v => idmaarbdWrite v
  | .sdmaarbdRead => sdmaarbdRead
  | .sdmaarbdWrite v => sdmaarbdWrite v
  | .ucarbdRead => ucarbdRead
  | .ucarbdWrite v => ucarbdWrite v
  | .buserrRead => buserrRead
  | .buserrWrite v => buserrWrite v
  | .buserrclrRead => buserrclrRead
  | .buserrclrWrite v => buserrclrWrite v
  | .l2cfgRead => l2cfgRead
  | .l2cfgWrite v => l2cfgWrite v
  | .l1pcfgRead => l1pcfgRead
  | .l1pcfgWrite v => l1pcfgWrite v
  | .l1pccRead => l1pccRead
  | .l1pccWrite v => l1pccWrite v
  | .l1dcfgRead => l1dcfgRead
  | .l1dcfgWrite v => l1dcfgWrite v
  | .l1dccRead => l1dccRead
  | .l1dccWrite v => l1dccWrite v
  | .l2wbarRead => l2wbarRead
  | .l2wbarWrite v => l2wbarWrite v
  | .l2wwcRead => l2wwcRead
  | .l2wwcWrite v => l2wwcWrite v
  | .l2wibarRead => l2wibarRead
  | .l2wibarWrite v => l2wibarWrite v
  | .l2wiwcRead => l2wiwcRead
  | .l2wiwcWrite v => l2wiwcWrite v
  | .l2ibarRead => l2ibarRead
  | .l2ibarWrite v => l2ibarWrite v
  | .l2iwcRead => l2iwcRead
  | .l2iwcWrite v => l2iwcWrite v
  | .l1pibarRead => l1pibarRead
  | .l1pibarWrite v => l1pibarWrite v
  | .l1piwcRead => l1piwcRead
  | .l1piwcWrite v => l1piwcWrite v
  | .l1dwibarRead => l1dwibarRead
  | .l1dwibarWrite v => l1dwibarWrite v
  | .l1dwiwcRead => l1dwiwcRead
  | .l1dwiwcWrite v => l1dwiwcWrite v
  | .l1dwbarRead => l1dwbarRead
  | .l1dwbarWrite v => l1dwbarWrite v
  | .l1dwwcRead => l1dwwcRead
  | .l1dwwcWrite v => l1dwwcWrite v
  | .l1dibarRead => l1dibarRead
  | .l1dibarWrite v => l1dibarWrite v
  | .l1diwcRead => l1diwcRead
  | .l1diwcWrite v => l1diwcWrite v
  | .l2wbRead => l2wbRead
  | .l2wbWrite v => l2wbWrite v
  | .l2wbinvRead => l2wbinvRead
  | .l2wbinvWrite v => l2wbinvWrite v
  | .l2invRead => l2invRead
  | .l2invWrite v => l2invWrite v
  | .l1pinvRead => l1pinvRead
  | .l1pinvWrite v => l1pinvWrite v
  | .l1dwbRead => l1dwbRead
  | .l1dwbWrite v => l1dwbWrite v
  | .l1dwbinvRead => l1dwbinvRead
  | .l1dwbinvWrite v => l1dwbinvWrite v
  | .l1dinvRead => l1dinvRead
  | .l1dinvWrite v => l1dinvWrite v
  | .marRead n => marRead n
  | .marWrite n v => marWrite n v
  | .l2mpfarRead => l2mpfarRead
  | .l2mpfarWrite v => l2mpfarWrite v
  | .l2mpfsrRead => l2mpfsrRead
  | .l2mpfsrWrite v => l2mpfsrWrite v
  | .l2mpfcrRead => l2mpfcrRead
  | .l2mpfcrWrite v => l2mpfcrWrite v
  | .l2mplkRead n => l2mplkRead n
  | .l2mplkWrite n v => l2mplkWrite n v
  | .l2mplkcmdRead => l2mplkcmdRead
  | .l2mplkcmdWrite v => l2mplkcmdWrite v
  | .l2mplkstatRead => l2mplkstatRead
  | .l2mplkstatWrite v => l2mplkstatWrite v
  | .l1pmpfarRead => l1pmpfarRead
  | .l1pmpfarWrite v => l1pmpfarWrite v
  | .l1pmpfsrRead => l1pmpfsrRead
  | .l1pmpfsrWrite v => l1pmpfsrWrite v
  | .l1pmpfcrRead => l1pmpfcrRead
  | .l1pmpfcrWrite v => l1pmpfcrWrite v
  | .l1pmplkRead n => l1pmplkRead n
  | .l1pmplkWrite n v => l1pmplkWrite n v
  | .l1pmplkcmdRead => l1pmplkcmdRead
  | .l1pmplkcmdWrite v => l1pmplkcmdWrite v
  | .l1pmplkstatRead => l1pmplkstatRead
  | .l1pmplkstatWrite v => l1pmplkstatWrite v
  | .l1dmpfarRead => l1dmpfarRead
  | .l1dmpfarWrite v => l1dmpfarWrite v
  | .l1dmpfsrRead => l1dmpfsrRead
  | .l1dmpfsrWrite v => l1dmpfsrWrite v
  | .l1dmpfcrRead => l1dmpfcrRead
  | .l1dmpfcrWrite v => l1dmpfcrWrite v
  | .l1dmplkRead n => l1dmplkRead n
  | .l1dmplkWrite n v => l1dmplkWrite n v
  | .l1dmplkcmdRead => l1dmplkcmdRead
  | .l1dmplkcmdWrite v => l1dmplkcmdWrite v
  | .l1dmplkstatRead => l1dmplkstatRead
  | .l1dmplkstatWrite v => l1dmplkstatWrite v
  | .l2mppaRead n => l2mppaRead n
  | .l2mppaWrite n v => l2mppaWrite n v
  | .l1pmppaRead n => l1pmppaRead n
  | .l1pmppaWrite n v => l1pmppaWrite n v
  | .l1dmppaRead n => l1dmppaRead n
  | .l1dmppaWrite n v => l1dmppaWrite n v
  | .l2pdwakeRead n => l2pdwakeRead n
  | .l2pdwakeWrite n v => l2pdwakeWrite n v
  | .l2pdsleepRead n => l2pdsleepRead n
  | .l2pdsleepWrite n v => l2pdsleepWrite n v
  | .l2pdstatRead n => l2pdstatRead n
  | .l2pdstatWrite n v => l2pdstatWrite n v

theorem encodeOn_read (b : AegmuxBase) (r : Reg) : encodeOn b r.read = readWords b r := by cases r <;> rfl

theorem encodeOn_write (b : AegmuxBase) (r : Reg) (v : Word) : encodeOn b (r.write v) = writeWords b r v := by
  cases r <;> rfl

theorem wellFormed_read {r : Reg} (h : r ≠ .intmux 0) : r.read.wellFormed = true := by
  cases r with
  | intmux n => simpa [Reg.read, Instr.wellFormed] using h
  | _ => rfl

theorem wellFormed_write {r : Reg} (v : Word) (h : r ≠ .intmux 0) : (r.write v).wellFormed = true := by
  cases r with
  | intmux n => simpa [Reg.write, Instr.wellFormed] using h
  | _ => rfl

/-! ### The address table -/

/-- The array register of index `n` stands at the base plus `4 n`. -/
theorem index_eq_some_iff {base k a : Nat} {n : Fin k} : Reg.index base k a = some n ↔ a % 4 = 0 ∧ base ≤ a ∧ (a - base) / 4 = n := by
  unfold Reg.index
  split
  · next h => simp [Fin.ext_iff]; tauto
  · next h => simp; omega

/-- Addresses are multiples of 4 below 0200 0000h. -/
theorem addrOn_bound (b : AegmuxBase) (r : Reg) : r.addrOn b % 4 = 0 ∧ r.addrOn b < 0x2000000 := by
  cases r with
  | aegmux n => cases b <;> dsimp only [Reg.addrOn, AegmuxBase.addr] <;> omega
  | _ => dsimp only [Reg.addrOn, Reg.addr]; omega

/-- A register is found at its own address: for each register or array, an evaluation of the finite table. -/
theorem ofAddrOn_addrOn (b : AegmuxBase) (r : Reg) (h : r ≠ .intmux 0) : Reg.ofAddrOn b (r.addrOn b) = some r := by
  cases r with
  | evtflag n | evtset n | evtclr n | evtmask n | mevtflag n | expmask n | mexpflag n | aegmux n | mar n | l2mplk n
  | l1pmplk n | l1dmplk n | l2mppa n | l1pmppa n | l1dmppa n | l2pdwake n | l2pdsleep n | l2pdstat n =>
    clear h; revert n; cases b <;> decide +kernel
  | intmux n => revert n; cases b <;> decide +kernel
  | _ => cases b <;> rfl

theorem scalars_sound (b : AegmuxBase) : ∀ e ∈ Reg.scalars, e.2.addrOn b = e.1 ∧ e.2 ≠ .intmux 0 := by
  cases b <;> decide +kernel

theorem mem_of_lookup {l : List (Nat × Reg)} {a : Nat} {r : Reg} (h : l.lookup a = some r) : (a, r) ∈ l := by
  obtain ⟨l₁, l₂, rfl, -⟩ := List.lookup_eq_some_iff.1 h
  simp

/-- What an array finds at an address has that address. -/
theorem addrOn_of_index {b : AegmuxBase} {base k a : Nat} {f : Fin k → Reg} {r : Reg}
    (hb4 : base % 4 = 0) (hf : ∀ n, (f n).addrOn b = base + 4 * n.val) (h : (Reg.index base k a).map f = some r) : r.addrOn b = a := by
  obtain ⟨n, hn, rfl⟩ := Option.map_eq_some_iff.1 h
  obtain ⟨h4, hb, hi⟩ := index_eq_some_iff.1 hn
  rw [hf]
  omega

/-- What stands at an address has that address, and `INTMUX0` stands at none. -/
theorem addrOn_of_ofAddrOn {b : AegmuxBase} {a : Nat} {r : Reg} (h : Reg.ofAddrOn b a = some r) :
    r.addrOn b = a ∧ r ≠ .intmux 0 := by
  unfold Reg.ofAddrOn at h
  split at h
  · next q hq =>
    obtain rfl : q = r := Option.some.inj h
    exact scalars_sound b (a, q) (mem_of_lookup hq)
  · obtain ⟨o, ho, hr⟩ := List.exists_of_findSome?_eq_some h
    obtain rfl : o = some r := hr
    unfold Reg.arrays at ho
    simp only [List.mem_cons, List.not_mem_nil, or_false] at ho
    refine ⟨?_, ?_⟩
    · rcases ho with ho | ho | ho | ho | ho | ho | ho | ho | ho | ho | ho | ho | ho | ho | ho | ho | ho | ho | ho
      case inr.inr.inr.inr.inr.inr.inr.inl =>
        obtain ⟨n, hn, rfl⟩ := Option.map_eq_some_iff.1 ho.symm
        exact addrOn_of_index (f := .intmux) rfl (fun _ => rfl) (Option.map_eq_some_iff.2 ⟨n, (Option.filter_eq_some_iff.1 hn).1, rfl⟩)
      case inr.inr.inr.inr.inr.inr.inr.inr.inl => exact addrOn_of_index (by cases b <;> rfl) (fun _ => rfl) ho.symm
      all_goals exact addrOn_of_index rfl (fun _ => rfl) ho.symm
    · rintro rfl
      simp [eq_comm (a := some _), Option.filter_eq_some_iff] at ho

/-! ### The statements -/

/-- The words of a command of an existing register decode to that command. -/
theorem decodeOn_readWords (b : AegmuxBase) {r : Reg} (h : r ≠ .intmux 0) : decodeOn b (readWords b r) = .ok r.read := by
  obtain ⟨h4, hlt⟩ := addrOn_bound b r
  have hn : (BitVec.ofNat 32 (r.addrOn b)).toNat = r.addrOn b := by rw [BitVec.toNat_ofNat]; omega
  simp [decodeOn, readWords, hn, h4, ofAddrOn_addrOn b r h]

theorem decodeOn_writeWords (b : AegmuxBase) {r : Reg} (v : Word) (h : r ≠ .intmux 0) :
    decodeOn b (writeWords b r v) = .ok (r.write v) := by
  obtain ⟨h4, hlt⟩ := addrOn_bound b r
  have hn : (BitVec.ofNat 32 (r.addrOn b)).toNat = r.addrOn b := by rw [BitVec.toNat_ofNat]; omega
  simp [decodeOn, writeWords, hn, h4, ofAddrOn_addrOn b r h]

/-- Settles O2: a well-formed instruction is the read or the write of an existing register, which is found at its own
address. -/
theorem decodeOfEncode : Obligations.DecodeOfEncode := by
  unfold Obligations.DecodeOfEncode
  intro b i hi
  obtain ⟨r, hwf, ⟨hw, rfl⟩ | ⟨v, hw, rfl⟩⟩ := instr_statement i
  · rw [hw, decodeOn_readWords b (hwf.1 hi)]
  · rw [hw, decodeOn_writeWords b v (hwf.1 hi)]

/-- What decodes is three words: the address of an existing register, and the direction and value of its command. -/
theorem decodeOn_ok {b : AegmuxBase} {ws : List Word} {i : Instr} (h : decodeOn b ws = .ok i) :
    ∃ r : Reg, r ≠ .intmux 0 ∧ ((ws = readWords b r ∧ i = r.read) ∨ ∃ v, ws = writeWords b r v ∧ i = r.write v) := by
  unfold decodeOn at h
  split at h
  · next a d v =>
    split at h
    · cases h
    · split at h
      · cases h
      · next r hr =>
        obtain ⟨ha, hr0⟩ := addrOn_of_ofAddrOn hr
        have haw : BitVec.ofNat 32 (r.addrOn b) = a := by rw [ha, BitVec.ofNat_toNat, BitVec.setWidth_eq]
        refine ⟨r, hr0, ?_⟩
        unfold readWords writeWords
        rw [haw]
        split at h
        · next hd =>
          split at h
          · next hv => cases h; exact .inl ⟨by rw [hd, hv], rfl⟩
          · cases h
        · split at h
          · next hd => cases h; exact .inr ⟨v, by rw [hd], rfl⟩
          · cases h
  · cases h

/-- Settles O3: the words are those of the read or the write of an existing register. -/
theorem encodeOfDecode : Obligations.EncodeOfDecode := by
  unfold Obligations.EncodeOfDecode
  intro b ws i h
  obtain ⟨r, hr, ⟨rfl, rfl⟩ | ⟨v, rfl, rfl⟩⟩ := decodeOn_ok h
  · exact ⟨wellFormed_read hr, encodeOn_read b r⟩
  · exact ⟨wellFormed_write v hr, encodeOn_write b r v⟩

end Sys2Proof.Proofs.Encoding

/-!
PROOFS. What one register command can do (spec/30_encoding.md R152): every read only answers, and every write either has its
effect in both privileges or is guarded by the privilege check. The statements about all commands are read off this
classification.
-/
namespace Sys2Proof.Proofs.Commands
open Sys2Proof Sys2Proof.Machine Sys2Proof.Proofs.Encoding

/-! ### Reads -/

/-- An outcome whose next state, if any, differs from `s` in the reply and in the free values used. -/
def Answers (s : State) (o : Host.Outcome State Fault Refusal) : Prop :=
  ∀ t, o = .next t → ∃ n x, t = (s.setFree n).setReply x

theorem answers_answer (s : State) (v : Word) : Answers s (s.answer v) := by
  rintro t h; cases h; exact ⟨s.free, .word v, rfl⟩

theorem answers_spend_answer (s : State) (v : Word) : Answers s (s.spend.answer v) := by
  rintro t h; cases h; exact ⟨s.free + 1, .word v, rfl⟩

theorem answers_refused (s : State) (x : Refusal) : Answers s (.refused x) := fun _ h => by cases h

theorem answers_readBar (s : State) : Answers s s.readBar := answers_spend_answer s _

theorem answers_readCount (s : State) (r : CohReg) : Answers s (s.readCount r) := by
  unfold State.readCount
  split
  · split
    · exact answers_spend_answer s _
    · exact answers_answer s _
  · exact answers_answer s _

theorem answers_readFar (s : State) (x : Block) : Answers s (s.readFar x) := by
  unfold State.readFar
  split
  · exact answers_answer s _
  · exact answers_spend_answer s _

theorem answers_ifProtected {s : State} {o : Host.Outcome State Fault Refusal} (r : Reg) (h : Answers s o) :
    Answers s (s.ifProtected r o) := by
  unfold State.ifProtected
  split
  · exact h
  · exact answers_refused s _

theorem answers_intmux (s : State) (n : Fin 4) : Answers s (execIntmuxRead n s) := by
  unfold execIntmuxRead State.withIntMux
  split
  · exact answers_refused s _
  all_goals exact answers_answer s _

theorem answers_aegmux (s : State) (n : Fin 2) : Answers s (execAegmuxRead n s) := by
  unfold execAegmuxRead
  split
  · exact answers_answer s _
  · exact answers_refused s _

/-- A read command only answers. -/
theorem answers_read (r : Reg) (s : State) : Answers s (exec r.read s) := by
  cases r with
  | intmux n => exact answers_intmux s n
  | aegmux n => exact answers_aegmux s n
  | l2wbar | l2wibar | l2ibar | l1pibar | l1dwibar | l1dwbar | l1dibar => exact answers_readBar s
  | l2wwc | l2wiwc | l2iwc | l1piwc | l1dwiwc | l1dwwc | l1diwc => exact answers_readCount s _
  | l2mpfar | l1pmpfar | l1dmpfar => exact answers_ifProtected _ (answers_readFar s _)
  | l2mpfsr | l2mpfcr | l2mplkcmd | l2mplkstat | l1pmpfsr | l1pmpfcr | l1pmplkcmd | l1pmplkstat | l1dmpfsr | l1dmpfcr
  | l1dmplkcmd | l1dmplkstat => exact answers_ifProtected _ (answers_answer s _)
  | l2mplk n | l1pmplk n | l1dmplk n | l2mppa n | l1pmppa n | l1dmppa n =>
    exact answers_ifProtected _ (answers_answer s _)
  | _ => exact answers_answer s _

/-! ### What keeps the data -/

theorem keepsData_refl (s : State) : KeepsData s s := ⟨fun _ => rfl, rfl, rfl, rfl, rfl, rfl, rfl, rfl, rfl⟩

theorem keepsData_trans {s t u : State} (h : KeepsData s t) (k : KeepsData t u) : KeepsData s u :=
  ⟨fun a => (k.bytes a).trans (h.bytes a), k.l1p.trans h.l1p, k.l1d.trans h.l1d, k.wbuf.trans h.wbuf,
    k.victim.trans h.victim, k.l2.trans h.l2, k.cpu.trans h.cpu, k.plat.trans h.plat, k.agenda.trans h.agenda⟩

theorem keepsData_ite {s t u : State} {c : Prop} [Decidable c] (h : KeepsData s t) (k : KeepsData s u) :
    KeepsData s (if c then t else u) := by split_ifs <;> assumption

theorem keepsData_setReply (s : State) (x : Reply) : KeepsData s (s.setReply x) := ⟨fun _ => rfl, rfl, rfl, rfl, rfl, rfl, rfl, rfl, rfl⟩

theorem keepsData_setIntc (s : State) (x : Intc) : KeepsData s (s.setIntc x) := ⟨fun _ => rfl, rfl, rfl, rfl, rfl, rfl, rfl, rfl, rfl⟩

theorem keepsData_setBwm (s : State) (x : Bwm) : KeepsData s (s.setBwm x) := ⟨fun _ => rfl, rfl, rfl, rfl, rfl, rfl, rfl, rfl, rfl⟩

theorem keepsData_setEmc (s : State) (x : Emc) : KeepsData s (s.setEmc x) := ⟨fun _ => rfl, rfl, rfl, rfl, rfl, rfl, rfl, rfl, rfl⟩

theorem keepsData_setPdc (s : State) (x : Pdc) : KeepsData s (s.setPdc x) := ⟨fun _ => rfl, rfl, rfl, rfl, rfl, rfl, rfl, rfl, rfl⟩

theorem keepsData_spend (s : State) : KeepsData s s.spend := ⟨fun _ => rfl, rfl, rfl, rfl, rfl, rfl, rfl, rfl, rfl⟩

theorem keepsData_setChan (s : State) (c : Fin 2) (x : Chan) : KeepsData s (s.setChan c x) := by
  unfold State.setChan
  split_ifs <;> exact ⟨fun _ => rfl, rfl, rfl, rfl, rfl, rfl, rfl, rfl, rfl⟩

theorem keepsData_setMp (s : State) (x : Block) (m : Mp) : KeepsData s (s.setMp x m) := by
  cases x <;> exact ⟨fun _ => rfl, rfl, rfl, rfl, rfl, rfl, rfl, rfl, rfl⟩

theorem keepsData_setL1p (s : State) (x : L1p) (h : x.lines = s.l1p.lines) : KeepsData s (s.setL1p x) :=
  ⟨fun _ => rfl, h, rfl, rfl, rfl, rfl, rfl, rfl, rfl⟩

theorem keepsData_setL1d (s : State) (x : L1d) (h : x.lines = s.l1d.lines) (hw : x.wbuf = s.l1d.wbuf)
    (hv : x.victim = s.l1d.victim) : KeepsData s (s.setL1d x) :=
  ⟨fun _ => rfl, rfl, h, hw, hv, rfl, rfl, rfl, rfl⟩

theorem keepsData_setL2 (s : State) (x : L2) (h : x.lines = s.l2.lines) : KeepsData s (s.setL2 x) :=
  ⟨fun _ => rfl, rfl, rfl, rfl, rfl, h, rfl, rfl, rfl⟩

theorem keepsData_recordFault (s : State) (x : Block) (o : Origin) (a : Nat) (p : Priv) (k : Kind) (id : Nat) :
    KeepsData s (s.recordFault x o a p k id) := by
  obtain ⟨_, _, _, _, h⟩ := recordFault_eq s x o a p k id
  rw [h]
  exact ⟨fun _ => rfl, rfl, rfl, rfl, rfl, rfl, rfl, rfl, rfl⟩

theorem keepsData_registerPermissionFault (s : State) (o : Owner) (a : Nat) : KeepsData s (s.registerPermissionFault o a) := by
  unfold State.registerPermissionFault
  split
  · exact keepsData_recordFault ..
  · split
    · exact keepsData_refl s
    · exact keepsData_setIntc s _
    · exact keepsData_setIntc s _

theorem keepsData_setLock (s : State) (x : Block) (l : Lock) : KeepsData s (s.setLock x l) := keepsData_setMp ..

theorem keepsData_lockFault (s : State) (x : Block) (a : Nat) : KeepsData s (s.lockFault x a) := keepsData_recordFault ..

/-! ### What keeps the invariant under an effect that only supervisor code has -/

theorem keeps_setPdc (s : State) (x : Pdc) : Keeps s (s.setPdc x) :=
  ⟨rfl, rfl, rfl, fun h => ⟨h.1, h.2, h.3, h.4, h.5, h.6, h.7, h.8, h.9, h.10⟩⟩

theorem keeps_setMp (s : State) (x : Block) (m : Mp) : Keeps s (s.setMp x m) := by
  cases x <;> exact ⟨rfl, rfl, rfl, fun h => ⟨h.1, h.2, h.3, h.4, h.5, h.6, h.7, h.8, h.9, h.10⟩⟩

theorem keeps_setLock (s : State) (x : Block) (l : Lock) : Keeps s (s.setLock x l) := keeps_setMp ..

/-- The interrupt controller, with the bits of events 0 to 3 as they must be. -/
theorem keeps_setIntc_of_combined (s : State) (x : Intc) (h : s.Inv → (s.setIntc x).combinedReserved = true) :
    Keeps s (s.setIntc x) :=
  ⟨rfl, rfl, rfl, fun i => ⟨i.1, i.2, h i, i.4, i.5, i.6, i.7, i.8, i.9, i.10⟩⟩

/-- The implemented bits of a value set no reserved bit. -/
theorem onlyBits_implemented (m v : Word) : onlyBits m (implemented m v) = true := by
  unfold onlyBits implemented
  rw [decide_eq_true_eq, BitVec.and_assoc, BitVec.and_not_self]
  exact BitVec.and_zero

theorem all_set {n : Nat} {v : Vector Word n} {p : Word → Bool} (h : v.toList.all p = true) (i : Fin n) (x : Word)
    (hx : p x = true) : (v.set i x).toList.all p = true := by
  rw [List.all_eq_true] at h ⊢
  intro y hy
  rw [Vector.toList_set] at hy
  rcases List.mem_or_eq_of_mem_set hy with hy | rfl
  · exact h y hy
  · exact hx

theorem mppaReserved_iff (s : State) : s.mppaReserved = true ↔ ((platLegal s.plat = true ∧
    s.l1p.mppa.toList.all (onlyBits mppaMask) = true) ∧ s.l1d.mppa.toList.all (onlyBits l1dMppaMask) = true) ∧
      s.l2.mppa.toList.all (onlyBits mppaMask) = true := by
  simp only [State.mppaReserved, Bool.and_eq_true]

theorem keeps_setL1pMppa (s : State) (n : Fin 32) (v : Word) :
    Keeps s (s.setL1p { s.l1p with mppa := s.l1p.mppa.set n (implemented mppaMask v) }) :=
  ⟨rfl, rfl, rfl, fun i => ⟨i.1, by
    obtain ⟨⟨⟨hp, h1⟩, h2⟩, h3⟩ := (mppaReserved_iff s).1 i.mppa
    exact (mppaReserved_iff _).2 ⟨⟨⟨hp, all_set h1 n _ (onlyBits_implemented _ v)⟩, h2⟩, h3⟩,
    i.3, i.4, i.5, i.6, i.7, i.8, i.9, i.framesL1p _ (i.frames .l1p)⟩⟩

theorem keeps_setL1dMppa (s : State) (n : Fin 32) (v : Word) :
    Keeps s (s.setL1d { s.l1d with mppa := s.l1d.mppa.set n (implemented l1dMppaMask v) }) :=
  ⟨rfl, rfl, rfl, fun i => ⟨i.1, by
    obtain ⟨⟨⟨hp, h1⟩, h2⟩, h3⟩ := (mppaReserved_iff s).1 i.mppa
    exact (mppaReserved_iff _).2 ⟨⟨⟨hp, h1⟩, all_set h2 n _ (onlyBits_implemented _ v)⟩, h3⟩,
    i.3, i.4, i.5, i.6, i.7, i.8, i.9, i.framesL1d _ (i.frames .l1d)⟩⟩

theorem keeps_setL2Mppa (s : State) (n : Fin 64) (v : Word) :
    Keeps s (s.setL2 { s.l2 with mppa := s.l2.mppa.set n (implemented mppaMask v) }) :=
  ⟨rfl, rfl, rfl, fun i => ⟨i.1, by
    obtain ⟨⟨⟨hp, h1⟩, h2⟩, h3⟩ := (mppaReserved_iff s).1 i.mppa
    exact (mppaReserved_iff _).2 ⟨⟨⟨hp, h1⟩, h2⟩, all_set h3 n _ (onlyBits_implemented _ v)⟩,
    i.3, i.4, i.5, i.6, i.7, i.8, i.9, i.framesL2 _ (i.frames .l2)⟩⟩

theorem keeps_setMar (s : State) (n : Fin 256) (b : Bool) : Keeps s (s.setL2 { s.l2 with mar := s.l2.mar.set n b }) :=
  (Quiet.refl s).thenL2 _ rfl rfl fun i => i.frames .l2

/-! ### The forms of a write -/

/-- The outcome of a write of register `r`: an effect in both privileges, one guarded by the privilege check, or a stop. Only
the cache registers move data. -/
inductive WriteForm (r : Reg) (s : State) : Host.Outcome State Fault Refusal → Prop
  | both (t : State) (q : Quiet s t) (d : r ∉ cacheRegs → KeepsData s t) : WriteForm r s (.next t)
  | guarded (o : Owner) (a : Nat) (f : State → State) (k : Keeps s (f s)) (d : r ∉ cacheRegs → KeepsData s (f s)) :
      WriteForm r s (s.supervisorWrite o a f)
  | fault (x : Fault) : WriteForm r s (.fault x)
  | refused (x : Refusal) : WriteForm r s (.refused x)

theorem WriteForm.done {r : Reg} {s : State} (t : State) (q : Quiet s t) (d : r ∉ cacheRegs → KeepsData s t) :
    WriteForm r s t.done :=
  .both _ (q.trans (quiet_setReply t .none)) fun h => keepsData_trans (d h) (keepsData_setReply t .none)

theorem WriteForm.outcome {r : Reg} {s : State} {x : Except Stop State}
    (h : ∀ t, x = .ok t → Quiet s t ∧ (r ∉ cacheRegs → KeepsData s t)) :
    WriteForm r s (outcome (x.map fun t => t.setReply .none)) := by
  match x with
  | .ok t => exact .done t (h t rfl).1 (h t rfl).2
  | .error (.fault f) => exact .fault f
  | .error (.refused f) => exact .refused f

theorem WriteForm.protected {r : Reg} {s : State} {o : Host.Outcome State Fault Refusal} (q : Reg) (h : WriteForm r s o) :
    WriteForm r s (s.ifProtected q o) := by
  unfold State.ifProtected
  split
  · exact h
  · exact .refused _

/-- A guarded write that changes nothing: the register is read-only. -/
theorem WriteForm.readOnly {r : Reg} {s : State} (o : Owner) (a : Nat) : WriteForm r s (s.supervisorWrite o a fun s => s) :=
  .guarded o a _ (Keeps.refl s) fun _ => keepsData_refl s

theorem WriteForm.count {r : Reg} (s : State) (c : CohReg) (v : Word) (h : r ∈ cacheRegs) :
    WriteForm r s (Machine.outcome ((s.writeCount c v).map fun t => t.setReply .none)) :=
  .outcome fun _ ht => ⟨quiet_writeCount ht, fun k => absurd h k⟩

theorem WriteForm.bar {r : Reg} (s : State) (c : CohReg) (v : Word) (h : r ∈ cacheRegs) : WriteForm r s (s.writeBar c v).done :=
  .done _ (quiet_writeBar s c v) fun k => absurd h k

theorem WriteForm.global {r : Reg} (s : State) (c : CohReg) (v : Word) (h : r ∈ cacheRegs) :
    WriteForm r s (s.writeGlobal c v).done :=
  .done _ (quiet_writeGlobal s c v) fun k => absurd h k

/-- A guarded write of a cache register. -/
theorem WriteForm.guardedCache {r : Reg} {s : State} (o : Owner) (a : Nat) (f : State → State) (h : r ∈ cacheRegs)
    (k : Keeps s (f s)) : WriteForm r s (s.supervisorWrite o a f) :=
  .guarded o a f k fun n => absurd h n

theorem WriteForm.idmaCount {r : Reg} (s : State) (c : Fin 2) (v : Word) (x : Xfer)
    (h0 : c = 0 → onlyBits idma0CountMask v = true) (h1 : c = 1 → onlyBits idma1CountMask v = true) :
    WriteForm r s (Machine.outcome ((s.writeIdmaCount c v x).map fun t => t.setReply .none)) := by
  refine .outcome fun t ht => ⟨quiet_writeIdmaCount ht h0 h1, fun _ => ?_⟩
  rcases writeIdmaCount_cases ht with ⟨y, -, rfl⟩ | rfl
  · exact keepsData_trans (keepsData_spend s) (keepsData_setChan ..)
  · exact keepsData_trans (keepsData_spend s) (keepsData_setChan ..)

/-- An arbitration register takes implemented bits only. -/
theorem WriteForm.bwm {r : Reg} (s : State) (o : Owner) (a : Nat) (f : Bwm → Bwm)
    (h : s.bwmReserved = true → (s.setBwm (f s.bwm)).bwmReserved = true) :
    WriteForm r s (s.supervisorWrite o a fun s => s.setBwm (f s.bwm)) :=
  .guarded o a _ (keeps_setBwm s _ fun i => h i.bwm) fun _ => keepsData_setBwm s _

/-- `XMPFCR` writes. -/
theorem WriteForm.clearFault {r : Reg} (s : State) (o : Owner) (a : Nat) (x : Block) (v : Word) :
    WriteForm r s (s.supervisorWrite o a fun s => s.clearFault x v) :=
  .guarded o a _ (Keeps.ite (keeps_setMp s x _) (Keeps.refl s)) fun _ => keepsData_ite (keepsData_setMp ..) (keepsData_refl s)

theorem keeps_lockFault (s : State) (x : Block) (a : Nat) : Keeps s (s.lockFault x a) := (quiet_lockFault s x a).keeps

/-- A key word changes the lock, and records a fault out of sequence. -/
theorem WriteForm.key {r : Reg} (s : State) (o : Owner) (a : Nat) (x : Block) (n : Fin 4) (v : Word) :
    WriteForm r s (s.supervisorWrite o a fun s => s.writeKey x a n v) := by
  refine .guarded o a _ ?_ fun _ => ?_ <;> unfold State.writeKey <;> dsimp only
  · exact Keeps.ite (keeps_setLock ..) ((keeps_setLock ..).trans (keeps_lockFault ..))
  · exact keepsData_ite (keepsData_setLock ..) (keepsData_trans (keepsData_setLock ..) (keepsData_lockFault ..))

theorem keeps_engage (s : State) (x : Block) (a : Nat) : Keeps s (s.engage x a) :=
  Keeps.ite (keeps_setLock ..) ((keeps_setLock ..).trans (keeps_lockFault ..))

theorem keepsData_engage (s : State) (x : Block) (a : Nat) : KeepsData s (s.engage x a) :=
  keepsData_ite (keepsData_setLock ..) (keepsData_trans (keepsData_setLock ..) (keepsData_lockFault ..))

theorem keeps_disengage (s : State) (x : Block) (a : Nat) : Keeps s (s.disengage x a) :=
  Keeps.ite (keeps_setLock ..) ((keeps_setLock ..).trans (keeps_lockFault ..))

theorem keepsData_disengage (s : State) (x : Block) (a : Nat) : KeepsData s (s.disengage x a) :=
  keepsData_ite (keepsData_setLock ..) (keepsData_trans (keepsData_setLock ..) (keepsData_lockFault ..))

/-- The three command bits act one after the other. -/
theorem WriteForm.lockCmd {r : Reg} (s : State) (o : Owner) (a : Nat) (x : Block) (v : Word) :
    WriteForm r s (s.supervisorWrite o a fun s => s.writeLockCmd x a v) := by
  refine .guarded o a _ ?_ fun _ => ?_
  · exact ((Keeps.ite (keeps_setLock ..) (Keeps.refl s)).trans (Keeps.ite (keeps_engage ..) (Keeps.refl _))).trans
      (Keeps.ite (keeps_disengage ..) (Keeps.refl _))
  · exact keepsData_trans (keepsData_trans (keepsData_ite (keepsData_setLock ..) (keepsData_refl s))
      (keepsData_ite (keepsData_engage ..) (keepsData_refl _))) (keepsData_ite (keepsData_disengage ..) (keepsData_refl _))

theorem keeps_ite_lockFault {s t : State} (x : Block) (a : Nat) (h : Keeps s t) :
    Keeps s (if (s.mp x).lock.lk then s.lockFault x a else t) := Keeps.ite (keeps_lockFault s x a) h

theorem keepsData_ite_lockFault {s t : State} (x : Block) (a : Nat) (h : KeepsData s t) :
    KeepsData s (if (s.mp x).lock.lk then s.lockFault x a else t) := keepsData_ite (keepsData_lockFault s x a) h

/-- A write of the interrupt controller that touches no flag and no mask. -/
theorem WriteForm.intc {r : Reg} (s : State) (o : Owner) (a : Nat) (f : Intc → Intc) (h1 : (f s.intc).evtFlag = s.intc.evtFlag)
    (h2 : (f s.intc).evtMask = s.intc.evtMask) (h3 : (f s.intc).expMask = s.intc.expMask) :
    WriteForm r s (s.supervisorWrite o a fun s => s.setIntc (f s.intc)) :=
  .guarded o a _ (keeps_setIntc s _ h1 h2 h3) fun _ => keepsData_setIntc ..

/-- One that touches flags or masks, but not the bits of events 0 to 3. -/
theorem WriteForm.combined {r : Reg} (s : State) (o : Owner) (a : Nat) (f : Intc → Intc)
    (h : s.combinedReserved = true → (s.setIntc (f s.intc)).combinedReserved = true) :
    WriteForm r s (s.supervisorWrite o a fun s => s.setIntc (f s.intc)) :=
  .guarded o a _ (keeps_setIntc_of_combined s _ fun i => h i.combined) fun _ => keepsData_setIntc ..

/-- The first entry of a vector after one entry is set. -/
theorem getElem_zero_set (v : Vector Word 4) (n : Fin 4) (x : Word) : (v.set n x)[0] = if n = 0 then x else v[0] := by
  rw [Vector.getElem_set]
  exact if_congr (Fin.ext_iff (b := 0)).symm rfl rfl

/-- Bits that are kept clear by one more mask stay clear, bits that are set by one more value stay set. -/
theorem and_mask_of_and {x m : Word} (v : Word) (h : x &&& m = 0#32) : (x &&& v) &&& m = 0#32 := by
  rw [BitVec.and_assoc, BitVec.and_comm v, ← BitVec.and_assoc, h, BitVec.zero_and]

theorem withCombinedMasked_zero (v : Word) : withCombinedMasked 0 v &&& combinedBits = combinedBits := by
  refine BitVec.eq_of_getLsbD_eq fun i _ => ?_
  simp only [withCombinedMasked, if_true, BitVec.getLsbD_and, BitVec.getLsbD_or]
  cases v.getLsbD i <;> simp

theorem combined_setEvents {x : Word} (v : Word) (h : x &&& combinedBits = 0#32) :
    (x ||| v &&& ~~~combinedBits) &&& combinedBits = 0#32 := by
  rw [BitVec.and_comm, BitVec.and_or_distrib_left, BitVec.and_comm _ x, h, BitVec.and_comm _ (v &&& _), BitVec.and_assoc,
    BitVec.and_comm _ combinedBits, BitVec.and_not_self]
  simp

theorem combined_evtset (s : State) (n : Fin 4) (v : Word) (h : s.combinedReserved = true) :
    (s.setEvents n v).combinedReserved = true := by
  obtain ⟨h1, h2, h3⟩ := (State.combinedReserved_iff s).1 h
  refine (State.combinedReserved_iff _).2 ⟨?_, h2, h3⟩
  show ((s.intc.evtFlag.set n _)[0]) &&& combinedBits = 0#32
  rw [getElem_zero_set]
  split
  · next hn => subst hn; exact combined_setEvents v h1
  · exact h1

theorem combined_evtclr (s : State) (n : Fin 4) (v : Word) (h : s.combinedReserved = true) :
    (s.setIntc { s.intc with evtFlag := s.intc.evtFlag.set n (s.intc.evtFlag[n] &&& ~~~v) }).combinedReserved = true := by
  obtain ⟨h1, h2, h3⟩ := (State.combinedReserved_iff s).1 h
  refine (State.combinedReserved_iff _).2 ⟨?_, h2, h3⟩
  show ((s.intc.evtFlag.set n _)[0]) &&& combinedBits = 0#32
  rw [getElem_zero_set]
  split
  · next hn => subst hn; exact and_mask_of_and _ h1
  · exact h1

/-- A mask register keeps events 0 to 3 masked. -/
theorem combined_set (m : Vector Word 4) (n : Fin 4) (v : Word) (h : m[0] &&& combinedBits = combinedBits) :
    (m.set n (withCombinedMasked n v))[0] &&& combinedBits = combinedBits := by
  rw [getElem_zero_set]
  split
  · next hn => subst hn; exact withCombinedMasked_zero v
  · exact h

theorem combined_evtmask (s : State) (n : Fin 4) (v : Word) (h : s.combinedReserved = true) :
    (s.setIntc { s.intc with evtMask := s.intc.evtMask.set n (withCombinedMasked n v) }).combinedReserved = true := by
  obtain ⟨h1, h2, h3⟩ := (State.combinedReserved_iff s).1 h
  exact (State.combinedReserved_iff _).2 ⟨h1, combined_set _ n v h2, h3⟩

theorem combined_expmask (s : State) (n : Fin 4) (v : Word) (h : s.combinedReserved = true) :
    (s.setIntc { s.intc with expMask := s.intc.expMask.set n (withCombinedMasked n v) }).combinedReserved = true := by
  obtain ⟨h1, h2, h3⟩ := (State.combinedReserved_iff s).1 h
  exact (State.combinedReserved_iff _).2 ⟨h1, h2, combined_set _ n v h3⟩

theorem writeForm_intmux (s : State) (n : Fin 4) (v : Word) : WriteForm (.intmux n) s (execIntmuxWrite n v s) := by
  unfold execIntmuxWrite State.withIntMux
  split
  · exact .refused _
  all_goals exact .intc s _ _ (fun c => { c with intMux := c.intMux.set _ (implemented intmuxMask v) }) rfl rfl rfl

theorem writeForm_aegmux (s : State) (n : Fin 2) (v : Word) : WriteForm (.aegmux n) s (execAegmuxWrite n v s) := by
  unfold execAegmuxWrite
  split
  · exact .intc s _ _ (fun c => { c with aegMux := c.aegMux.set n v }) rfl rfl rfl
  · exact .refused _

theorem writeForm_idma0 (s : State) (x : Chan) (h : s.Inv → onlyBits idma0AddrMask x.source = true ∧
    onlyBits idma0AddrMask x.dest = true ∧ onlyBits idma0CountMask x.count = true ∧ x.queued = true) (r : Reg) :
    WriteForm r s (s.setIdma0 x).done :=
  .done _ (quiet_setIdma0 s x (fun i => (h i).1) (fun i => (h i).2.1) (fun i => (h i).2.2.1) fun i => (h i).2.2.2)
    fun _ => keepsData_setChan s 0 x

theorem writeForm_idma1 (s : State) (x : Chan) (h : x.count = s.idma1.count) (ha : x.active = s.idma1.active)
    (hp : x.pending = s.idma1.pending) (r : Reg) : WriteForm r s (s.setIdma1 x).done :=
  .done _ (quiet_setIdma1 s x (fun i => h ▸ i.idma1) fun i => by rw [Chan.queued, ha, hp]; exact i.queue1)
    fun _ => keepsData_setChan s 1 x

theorem quiet_setSleep (s : State) (n : Fin 2) (p q : Bool) : Quiet s (s.setSleep n p q) :=
  quiet_setL2 s _ rfl rfl rfl rfl rfl fun i => i.frames .l2

theorem keepsData_setSleep (s : State) (n : Fin 2) (p q : Bool) : KeepsData s (s.setSleep n p q) := keepsData_setL2 s _ rfl

/-- Every write of a register has one of the forms. -/
theorem write_form (r : Reg) (v : Word) (s : State) : WriteForm r s (exec (r.write v) s) := by
  cases r with
  | evtflag n | mevtflag n | mexpflag n => exact .readOnly _ _
  | intxstat => exact .readOnly _ _
  | evtset n => exact .combined s _ _ (fun _ => (s.setEvents n v).intc) (combined_evtset s n v)
  | evtclr n => exact .combined s _ _ (fun c => { c with evtFlag := c.evtFlag.set n (c.evtFlag[n] &&& ~~~v) }) (combined_evtclr s n v)
  | evtmask n => exact .combined s _ _ (fun c => { c with evtMask := c.evtMask.set n (withCombinedMasked n v) }) (combined_evtmask s n v)
  | expmask n => exact .combined s _ _ (fun c => { c with expMask := c.expMask.set n (withCombinedMasked n v) }) (combined_expmask s n v)
  | intmux n => exact writeForm_intmux s n v
  | aegmux n => exact writeForm_aegmux s n v
  | intxclr =>
    exact .guarded _ _ _ (Keeps.ite (keeps_setIntc s _ rfl rfl rfl) (Keeps.refl s))
      fun _ => keepsData_ite (keepsData_setIntc ..) (keepsData_refl s)
  | intdmask => exact .intc s _ _ (fun c => { c with intDMask := implemented intdmaskMask v }) rfl rfl rfl
  | pdccmd =>
    exact .guarded _ _ (fun s => s.setPdc { s.pdc with megpd := bit v 16 }) (keeps_setPdc s _) fun _ => keepsData_setPdc s _
  | mmRevid | idma0Stat | idma1Stat | buserr => exact .done s (Quiet.refl s) fun _ => keepsData_refl s
  | l2pdstat n => exact .done s (Quiet.refl s) fun _ => keepsData_refl s
  | idma0Mask =>
    refine writeForm_idma0 s _ ?_ _
    exact fun i => ⟨i.idma0.1, i.idma0.2.1, i.idma0.2.2, i.queue0⟩
  | idma0Source =>
    refine writeForm_idma0 s _ ?_ _
    exact fun i => ⟨onlyBits_implemented _ v, i.idma0.2.1, i.idma0.2.2, i.queue0⟩
  | idma0Dest =>
    refine writeForm_idma0 s _ ?_ _
    exact fun i => ⟨i.idma0.1, onlyBits_implemented _ v, i.idma0.2.2, i.queue0⟩
  | idma0Count => exact .idmaCount s 0 _ _ (fun _ => onlyBits_implemented _ v) nofun
  | idma1Source => refine writeForm_idma1 s _ ?_ ?_ ?_ _ <;> rfl
  | idma1Dest => refine writeForm_idma1 s _ ?_ ?_ ?_ _ <;> rfl
  | idma1Count => exact .idmaCount s 1 _ _ nofun fun _ => onlyBits_implemented _ v
  | cpuarbe =>
    refine .bwm s _ _ (fun b => { b with cpuarbe := implemented cpuarbMask v }) fun h => ?_
    simp_all [State.bwmReserved, onlyBits_implemented]
  | idmaarbe =>
    refine .bwm s _ _ (fun b => { b with idmaarbe := implemented maxwaitMask v }) fun h => ?_
    simp_all [State.bwmReserved, onlyBits_implemented]
  | sdmaarbe =>
    refine .bwm s _ _ (fun b => { b with sdmaarbe := implemented maxwaitMask v }) fun h => ?_
    simp_all [State.bwmReserved, onlyBits_implemented]
  | mdmaarbe =>
    refine .bwm s _ _ (fun b => { b with mdmaarbe := implemented mdmaarbMask v }) fun h => ?_
    simp_all [State.bwmReserved, onlyBits_implemented]
  | cpuarbu =>
    refine .bwm s _ _ (fun b => { b with cpuarbu := implemented cpuarbMask v }) fun h => ?_
    simp_all [State.bwmReserved, onlyBits_implemented]
  | idmaarbu =>
    refine .bwm s _ _ (fun b => { b with idmaarbu := implemented maxwaitMask v }) fun h => ?_
    simp_all [State.bwmReserved, onlyBits_implemented]
  | sdmaarbu =>
    refine .bwm s _ _ (fun b => { b with sdmaarbu := implemented maxwaitMask v }) fun h => ?_
    simp_all [State.bwmReserved, onlyBits_implemented]
  | ucarbu =>
    refine .bwm s _ _ (fun b => { b with ucarbu := implemented maxwaitMask v }) fun h => ?_
    simp_all [State.bwmReserved, onlyBits_implemented]
  | cpuarbd =>
    refine .bwm s _ _ (fun b => { b with cpuarbd := implemented cpuarbMask v }) fun h => ?_
    simp_all [State.bwmReserved, onlyBits_implemented]
  | idmaarbd =>
    refine .bwm s _ _ (fun b => { b with idmaarbd := implemented maxwaitMask v }) fun h => ?_
    simp_all [State.bwmReserved, onlyBits_implemented]
  | sdmaarbd =>
    refine .bwm s _ _ (fun b => { b with sdmaarbd := implemented maxwaitMask v }) fun h => ?_
    simp_all [State.bwmReserved, onlyBits_implemented]
  | ucarbd =>
    refine .bwm s _ _ (fun b => { b with ucarbd := implemented maxwaitMask v }) fun h => ?_
    simp_all [State.bwmReserved, onlyBits_implemented]
  | buserrclr =>
    exact .guarded _ _ _ (Keeps.ite (quiet_setEmc s _).keeps (Keeps.refl s))
      fun _ => keepsData_ite (keepsData_setEmc ..) (keepsData_refl s)
  | l2cfg => refine .guardedCache _ _ (fun s => s.writeL2cfg v) ?_ (keeps_writeL2cfg s v); decide
  | l1pcfg => refine .guardedCache _ _ (fun s => s.setL1pMode (v.setWidth 3)) ?_ (keeps_setL1pMode s _); decide
  | l1dcfg => refine .guardedCache _ _ (fun s => s.setL1dMode (v.setWidth 3)) ?_ (keeps_setL1dMode s _); decide
  | l1pcc => exact .done _ (quiet_setL1p s _ rfl rfl rfl fun i => i.frames .l1p) fun _ => keepsData_setL1p s _ rfl
  | l1dcc =>
    exact .done _ (quiet_setL1d s _ rfl rfl rfl (fun i => i.wbuf) fun i => i.frames .l1d)
      fun _ => keepsData_setL1d s _ rfl rfl rfl
  | l2wbar | l2wibar | l2ibar | l1pibar | l1dwibar | l1dwbar | l1dibar => refine .bar s _ v ?_; decide
  | l2wwc | l2wiwc | l2iwc | l1piwc | l1dwiwc | l1dwwc | l1diwc => refine .count s _ v ?_; decide
  | l2wb | l2wbinv | l1pinv | l1dwb | l1dwbinv => refine .global s _ v ?_; decide
  | l2inv => refine .guardedCache _ _ (fun s => s.writeGlobal .l2inv v) ?_ (quiet_writeGlobal s _ v).keeps; decide
  | l1dinv => refine .guardedCache _ _ (fun s => s.writeGlobal .l1dinv v) ?_ (quiet_writeGlobal s _ v).keeps; decide
  | mar n =>
    exact .guarded _ _ (fun s => if n.val ≤ 15 then s else s.setL2 { s.l2 with mar := s.l2.mar.set n (bit v 0) })
      (Keeps.ite (Keeps.refl s) (keeps_setMar s n _))
      fun _ => keepsData_ite (keepsData_refl s) (keepsData_setL2 s _ rfl)
  | l2mpfar | l2mpfsr | l2mplkstat | l1pmpfar | l1pmpfsr | l1pmplkstat | l1dmpfar | l1dmpfsr | l1dmplkstat =>
    exact .protected _ (.readOnly _ _)
  | l2mpfcr | l1pmpfcr | l1dmpfcr => exact .protected _ (.clearFault s _ _ _ v)
  | l2mplk n | l1pmplk n | l1dmplk n => exact .protected _ (.key s _ _ _ n v)
  | l2mplkcmd | l1pmplkcmd | l1dmplkcmd => exact .protected _ (.lockCmd s _ _ _ v)
  | l2mppa n =>
    exact .protected _ (.guarded _ _ _ (keeps_ite_lockFault _ _ (keeps_setL2Mppa s n v))
      fun _ => keepsData_ite_lockFault _ _ (keepsData_setL2 s _ rfl))
  | l1pmppa n =>
    exact .protected _ (.guarded _ _ _ (keeps_ite_lockFault _ _ (keeps_setL1pMppa s n v))
      fun _ => keepsData_ite_lockFault _ _ (keepsData_setL1p s _ rfl))
  | l1dmppa n =>
    exact .protected _ (.guarded _ _ _ (keeps_ite_lockFault _ _ (keeps_setL1dMppa s n v))
      fun _ => keepsData_ite_lockFault _ _ (keepsData_setL1d s _ rfl rfl rfl))
  | l2pdwake n => exact .done _ (quiet_setSleep s n _ _) fun _ => keepsData_setSleep s n _ _
  | l2pdsleep n =>
    exact .done _ (((quiet_setSleep s n _ _).trans (quiet_spend _)).trans (quiet_spend _))
      fun _ => keepsData_trans (keepsData_trans (keepsData_setSleep s n _ _) (keepsData_spend _)) (keepsData_spend _)

/-! ### The statements about all commands -/

/-- A command is a read or a write of a register. -/
theorem instr_cases (i : Instr) : ∃ r : Reg, i = r.read ∨ ∃ v, i = r.write v := by
  obtain ⟨r, -, ⟨-, h⟩ | ⟨v, -, h⟩⟩ := instr_statement i
  · exact ⟨r, .inl h⟩
  · exact ⟨r, .inr ⟨v, h⟩⟩

theorem quiet_of_answers {s t : State} {o : Host.Outcome State Fault Refusal} (h : Answers s o) (ht : o = .next t) : Quiet s t := by
  obtain ⟨n, x, rfl⟩ := h t ht
  exact (quiet_setFree s n).trans (quiet_setReply _ x)

theorem keepsData_of_answers {s t : State} {o : Host.Outcome State Fault Refusal} (h : Answers s o) (ht : o = .next t) :
    KeepsData s t := by
  obtain ⟨n, x, rfl⟩ := h t ht
  exact ⟨fun _ => rfl, rfl, rfl, rfl, rfl, rfl, rfl, rfl, rfl⟩

/-- What a guarded write leads to. -/
theorem supervisorWrite_next {s t : State} {o : Owner} {a : Nat} {f : State → State} (h : s.supervisorWrite o a f = .next t) :
    (s.mayWrite = true ∧ t = (f s).setReply .none) ∨
      (s.mayWrite = false ∧ t = (s.registerPermissionFault o a).setReply .none) := by
  cases hm : s.mayWrite with
  | true => rw [supervisorWrite_allowed _ _ _ _ hm] at h; cases h; exact .inl ⟨rfl, rfl⟩
  | false => rw [supervisorWrite_denied _ _ _ _ hm] at h; cases h; exact .inr ⟨rfl, rfl⟩

/-- Every command keeps the platform, the privilege, the agenda and the invariant. -/
theorem keeps_exec {i : Instr} {s t : State} (h : exec i s = .next t) : Keeps s t := by
  obtain ⟨r, rfl | ⟨v, rfl⟩⟩ := instr_cases i
  · exact (quiet_of_answers (answers_read r s) h).keeps
  · have hw := write_form r v s
    rw [h] at hw
    generalize ho : (Host.Outcome.next t : Host.Outcome State Fault Refusal) = o at hw
    cases hw with
    | both u q _ => cases ho; exact q.keeps
    | guarded o a f k _ =>
      rcases supervisorWrite_next ho.symm with ⟨-, rfl⟩ | ⟨-, rfl⟩
      · exact k.trans (quiet_setReply ..).keeps
      · exact ((quiet_registerPermissionFault ..).trans (quiet_setReply ..)).keeps
    | fault x => cases ho
    | refused x => cases ho

/-- A command that fails the privilege check is quiet. -/
theorem quiet_exec_of_denied {i : Instr} {s t : State} (hm : s.mayWrite = false) (h : exec i s = .next t) : Quiet s t := by
  obtain ⟨r, rfl | ⟨v, rfl⟩⟩ := instr_cases i
  · exact quiet_of_answers (answers_read r s) h
  · have hw := write_form r v s
    rw [h] at hw
    generalize ho : (Host.Outcome.next t : Host.Outcome State Fault Refusal) = o at hw
    cases hw with
    | both u q _ => cases ho; exact q
    | guarded o a f _ _ =>
      rcases supervisorWrite_next ho.symm with ⟨hc, -⟩ | ⟨-, rfl⟩
      · rw [hm] at hc; cases hc
      · exact (quiet_registerPermissionFault ..).trans (quiet_setReply ..)
    | fault x => cases ho
    | refused x => cases ho

/-- Settles O58: a write that fails the check has an effect that is the same in both privileges, or records a fault. -/
theorem userCommandsKeepSupervisorState : Obligations.UserCommandsKeepSupervisorState := by
  unfold Obligations.UserCommandsKeepSupervisorState
  exact fun i s t hm h => (quiet_exec_of_denied hm h).sup

/-- Settles O59: of the registers whose writes have an effect, only the cache registers' effect moves data. -/
theorem onlyCacheCommandsMoveData : Obligations.OnlyCacheCommandsMoveData := by
  unfold Obligations.OnlyCacheCommandsMoveData
  intro i s t hi h
  obtain ⟨r, rfl | ⟨v, rfl⟩⟩ := instr_cases i
  · exact keepsData_of_answers (answers_read r s) h
  · have hr : r ∉ cacheRegs := fun hr => hi ⟨r, hr, v, rfl⟩
    have hw := write_form r v s
    rw [h] at hw
    generalize ho : (Host.Outcome.next t : Host.Outcome State Fault Refusal) = o at hw
    cases hw with
    | both u _ d => cases ho; exact d hr
    | guarded o a f _ d =>
      rcases supervisorWrite_next ho.symm with ⟨-, rfl⟩ | ⟨-, rfl⟩
      · exact keepsData_trans (d hr) (keepsData_setReply ..)
      · exact keepsData_trans (keepsData_registerPermissionFault ..) (keepsData_setReply ..)
    | fault x => cases ho
    | refused x => cases ho

end Sys2Proof.Proofs.Commands

/-!
PROOFS. What every step keeps (spec/20_memory.md R131): each action keeps the platform, the agenda that is left and the
invariant, and all but the CPU's own change and a global reset keep the privilege.
-/
namespace Sys2Proof.Proofs.Step
open Sys2Proof Sys2Proof.Machine Sys2Proof.Proofs.Encoding Sys2Proof.Proofs.Commands

theorem outcome_next {x : Except Stop State} {t : State} (h : outcome x = .next t) : x = .ok t := by
  match x with
  | .ok _ => cases h; rfl
  | .error (.fault _) => cases h
  | .error (.refused _) => cases h

theorem onNext_next {o : Host.Outcome State Fault Refusal} {f : State → State} {t : State} (h : onNext o f = .next t) :
    ∃ u, o = .next u ∧ t = f u := by
  match o with
  | .next u => cases h; exact ⟨u, rfl, rfl⟩
  | .fault _ => cases h
  | .refused _ => cases h

/-- A step of the CPU that is carried out is the operation, followed by the end of the access. -/
theorem cpuStep_next {s t : State} {x : Option Access} {o : Host.Outcome State Fault Refusal} (h : cpuStep s x o = .next t) :
    ∃ u, o = .next u ∧ t = u.endAccess := by
  unfold cpuStep at h
  split at h
  · exact onNext_next h
  · cases h

/-! ### The CPU's own steps -/

theorem quiet_takeInterrupt (s : State) (k : Nat) : Quiet s (s.takeInterrupt k) := by
  unfold State.takeInterrupt
  repeat' split
  all_goals exact quiet_setCpu s _ rfl

theorem quiet_takeException (s : State) : Quiet s s.takeException := Quiet.ite (quiet_setCpu s _ (by rfl)) (Quiet.refl s)

theorem quiet_softwareException (s : State) (b : Bool) : Quiet s (s.softwareException b) :=
  Quiet.ite (quiet_setCpu s _ (by rfl)) (Quiet.refl s)

theorem quiet_nmi (s : State) : Quiet s s.nmi := Quiet.ite (quiet_setCpu s _ (by rfl)) (quiet_setCpu s _ (by rfl))

theorem quiet_begin (s : State) : Quiet s s.begin := quiet_setEmc s _

theorem keeps_runCommand {ws : List Word} {s t : State} (h : runCommand ws s = .next t) : Keeps s t := by
  unfold runCommand at h
  split at h
  · exact keeps_exec h
  · cases h

theorem keeps_cpuLoad {a w : Nat} {s t : State} (h : cpuLoad a w s = .next t) : Keeps s t := by
  unfold cpuLoad at h
  split at h
  · exact keeps_exec h
  · exact (quiet_loadBytes (outcome_next h)).keeps

theorem keeps_cpuStore {a w : Nat} {v : BitVec 64} {s t : State} (h : cpuStore a w v s = .next t) : Keeps s t := by
  unfold cpuStore at h
  split at h
  · exact keeps_exec h
  · obtain ⟨u, hu, rfl⟩ := except_map_ok (outcome_next h)
    exact ((quiet_storeBytes hu).trans (quiet_setReply _ _)).keeps

theorem keeps_poke {a : Nat} {b : Byte} {s t : State} (h : poke a b s = .next t) : Keeps s t := by
  unfold poke at h
  split at h
  · cases h; exact (quiet_setMem s _ fun k => Memory.write_wf k a b).keeps
  · cases h

/-! ### One action -/

/-- What an action keeps. -/
structure ActKeeps (x : Action) (s t : State) : Prop where
  plat   : t.plat = s.plat
  agenda : t.agenda = s.agenda
  inv    : s.Inv → t.Inv
  priv   : (∀ p, x ≠ .setPriv p) → x ≠ .globalReset → t.cpu.priv = s.cpu.priv

theorem ActKeeps.of_keeps {x : Action} {s t : State} (h : Keeps s t) : ActKeeps x s t :=
  ⟨h.plat, h.agenda, h.inv, fun _ _ => h.priv⟩

/-- A step of the CPU whose operation keeps what a move keeps. -/
theorem ActKeeps.of_cpuStep {x : Action} {s t : State} {y : Option Access} {o : Host.Outcome State Fault Refusal}
    (h : cpuStep s y o = .next t) (k : ∀ u, o = .next u → Keeps s u) : ActKeeps x s t := by
  obtain ⟨u, hu, rfl⟩ := cpuStep_next h
  exact .of_keeps ((k u hu).trans (quiet_endAccess u).keeps)

theorem ActKeeps.of_cpuQuiet {x : Action} {s t u : State} {y : Option Access} (h : cpuStep s y (.next u) = .next t)
    (k : Quiet s u) : ActKeeps x s t :=
  .of_cpuStep h fun _ hu => by cases hu; exact k.keeps

/-- A change of the privilege keeps the rest of the machine. -/
theorem actKeeps_setPriv {s t : State} {p : Priv} (h : act (.setPriv p) s = .next t) : ActKeeps (.setPriv p) s t := by
  obtain ⟨u, hu, rfl⟩ := cpuStep_next (show cpuStep s none _ = .next t from h)
  cases hu
  exact ⟨rfl, rfl, fun i => (quiet_endAccess _).inv ⟨i.1, i.2, i.3, i.4, i.5, i.6, i.7, i.8, i.9, i.10⟩,
    fun k => absurd rfl (k p)⟩

theorem actKeeps_act {x : Action} {s t : State} (h : act x s = .next t) : ActKeeps x s t := by
  cases x with
  | command ws => exact .of_cpuStep h fun _ => keeps_runCommand
  | load a w =>
    refine .of_cpuStep h fun u hu => ?_
    obtain ⟨v, hv, rfl⟩ := onNext_next hu
    exact (keeps_cpuLoad hv).trans (quiet_loosen ..).keeps
  | store a w v =>
    refine .of_cpuStep h fun u hu => ?_
    obtain ⟨v, hv, rfl⟩ := onNext_next hu
    exact (keeps_cpuStore hv).trans (quiet_loosen ..).keeps
  | accessMore =>
    simp only [act] at h
    split at h
    · obtain ⟨u, hu, rfl⟩ := onNext_next h
      exact .of_keeps (((quiet_accessMore (outcome_next hu)).trans (quiet_loosen ..)).trans (quiet_endAccess _)).keeps
    · cases h; exact .of_keeps (Keeps.refl s)
  | readAhead k a n =>
    simp only [act] at h
    split at h
    · cases h; exact .of_keeps (quiet_readAhead ..).keeps
    · cases h
  | evict y =>
    simp only [act] at h
    split at h
    · cases h; exact .of_keeps (quiet_evictFor ..).keeps
    · cases h
  | outWord i => cases h; exact .of_keeps (quiet_outWord ..).keeps
  | fetch a =>
    refine .of_cpuStep h fun u hu => ?_
    obtain ⟨v, hv, rfl⟩ := onNext_next hu
    exact (((quiet_fetchPacket (outcome_next hv)).trans (quiet_loosen ..)).trans (quiet_setCpu _ _ (by rfl))).keeps
  | prefetch a =>
    refine .of_cpuStep h fun u hu => ?_
    obtain ⟨v, hv, rfl⟩ := onNext_next hu
    exact ((quiet_prefetchPacket (outcome_next hv)).trans (quiet_loosen ..)).keeps
  | setPriv p => exact actKeeps_setPriv h
  | setIer v => exact .of_cpuQuiet h (quiet_setCpu s _ (by rfl))
  | setGie b => exact .of_cpuQuiet h (quiet_setCpu s _ (by rfl))
  | setGee b => exact .of_cpuQuiet h (quiet_setCpu s _ (by rfl))
  | setRep v => exact .of_cpuQuiet h (quiet_setCpu s _ (by rfl))
  | takeInterrupt k => exact .of_cpuQuiet h (quiet_takeInterrupt s k)
  | takeException => exact .of_cpuQuiet h (quiet_takeException s)
  | softwareException b => exact .of_cpuQuiet h (quiet_softwareException s b)
  | idle => exact .of_cpuQuiet h (quiet_enterIdle s)
  | sploop b => exact .of_cpuQuiet h (quiet_setSploop s b)
  | drainWriteBuffer => cases h; exact .of_keeps ((quiet_drainOne s).trans (quiet_loosen ..)).keeps
  | drainVictim => cases h; exact .of_keeps (quiet_drainVictim s).keeps
  | victimWord i => cases h; exact .of_keeps (quiet_victimWord s i).keeps
  | writebackLine set way => cases h; exact .of_keeps (quiet_writebackLine ..).keeps
  | coherence b i => cases h; exact .of_keeps (quiet_cohStep ..).keeps
  | coherenceSkip b i => cases h; exact .of_keeps (quiet_cohSkip ..).keeps
  | coherenceExtra b f => cases h; exact .of_keeps (quiet_cohExtra ..).keeps
  | idma c => exact .of_keeps (quiet_stepIdma (outcome_next h)).keeps
  | arbitrate r qs => cases h; exact .of_keeps (keeps_arbitrate ..)
  | sdmaRead id p a n => exact .of_keeps (quiet_sdmaRead (outcome_next h)).keeps
  | sdmaWrite id p a bs => exact .of_keeps (quiet_sdmaWrite (outcome_next h)).keeps
  | sdmaMore i => exact .of_keeps (quiet_sdmaMore (outcome_next h)).keeps
  | event e =>
    simp only [act] at h
    split at h
    · next he =>
      cases h
      refine .of_keeps (quiet_raise s e ?_).keeps
      simp only [isPlatformEvent, Bool.or_eq_true, Bool.and_eq_true, decide_eq_true_eq] at he
      omega
    · cases h
  | nmi =>
    simp only [act] at h
    split at h
    · cases h; exact .of_keeps (quiet_nmi s).keeps
    · cases h
  | poke a b => exact .of_keeps (keeps_poke h)
  | busReply r => cases h; exact .of_keeps (quiet_setEmc ..).keeps
  | globalReset =>
    cases h
    obtain ⟨hp, ha, hi⟩ := globalReset_keeps s
    exact ⟨hp, ha, hi, fun _ k => absurd rfl k⟩
  | localReset => cases h; exact .of_keeps (keeps_localReset s)

/-! ### One step -/

theorem step_eq (s : State) : step s = stepWith s := rfl

/-- A step is the sampling alone, or the first action of the agenda and the sampling. -/
theorem step_cases {s t : State} (h : step s = .next t) :
    (s.agenda = [] ∧ t = s.begin.sample) ∨
      ∃ x rest u, s.agenda = x :: rest ∧ act x (s.setAgenda rest).begin = .next u ∧ t = u.sample := by
  rw [step_eq, stepWith] at h
  split at h
  · next e => cases h; exact .inl ⟨e, rfl⟩
  · next x rest e =>
    obtain ⟨u, hu, rfl⟩ := onNext_next h
    exact .inr ⟨x, rest, u, e, hu, rfl⟩

theorem inv_setAgenda {s : State} (l : List Action) (i : s.Inv) : (s.setAgenda l).Inv :=
  ⟨i.1, i.2, i.3, i.4, i.5, i.6, i.7, i.8, i.9, i.10⟩

/-- Settles O54: the start of the step, its action and its sampling each keep the invariant. -/
theorem everyStepKeepsTheInvariant : Obligations.EveryStepKeepsTheInvariant := by
  unfold Obligations.EveryStepKeepsTheInvariant
  intro s t i h
  rcases step_cases h with ⟨-, rfl⟩ | ⟨x, rest, u, -, hu, rfl⟩
  · exact (keeps_sample _).inv ((quiet_begin s).inv i)
  · exact (keeps_sample u).inv ((actKeeps_act hu).inv ((quiet_begin _).inv (inv_setAgenda rest i)))

/-- Settles O56: the action is taken off before it acts, and nothing that follows changes the agenda or the platform. -/
theorem stepTakesOneActionAndKeepsThePlatform : Obligations.StepTakesOneActionAndKeepsThePlatform := by
  unfold Obligations.StepTakesOneActionAndKeepsThePlatform
  intro s t h
  rcases step_cases h with ⟨e, rfl⟩ | ⟨x, rest, u, e, hu, rfl⟩
  · rw [(keeps_sample _).agenda, (keeps_sample _).plat, e]
    exact ⟨e, rfl⟩
  · rw [(keeps_sample _).agenda, (keeps_sample _).plat, (actKeeps_act hu).agenda, (actKeeps_act hu).plat, e]
    exact ⟨rfl, rfl⟩

/-- Settles O57: only a change of the privilege and a global reset act on it, and the sampling does not. -/
theorem privilegeChangesOnlyByTheCpu : Obligations.PrivilegeChangesOnlyByTheCpu := by
  unfold Obligations.PrivilegeChangesOnlyByTheCpu
  intro s t h hp hr
  rcases step_cases h with ⟨-, rfl⟩ | ⟨x, rest, u, e, hu, rfl⟩
  · exact (keeps_sample _).priv
  · rw [e] at hp hr
    rw [(keeps_sample _).priv]
    exact (actKeeps_act hu).priv (fun p k => hp p (congrArg some k)) fun k => hr (congrArg some k)

/-- Settles O4. -/
theorem stepRunsDecodedCommand : Obligations.StepRunsDecodedCommand := by
  unfold Obligations.StepRunsDecodedCommand
  intro s ws i rest ha hm hd
  have hrun : runCommand ws (s.setAgenda rest).begin = exec i (s.setAgenda rest).begin := by
    unfold runCommand
    rw [show (s.setAgenda rest).begin.plat = s.plat from rfl, hd]
  have hmay : (s.setAgenda rest).begin.mayIssue none = true := hm
  rw [step_eq, stepWith, ha]
  show onNext (cpuStep _ none (runCommand ws _)) State.sample = _
  rw [cpuStep, if_pos hmay, hrun]
  cases exec i (s.setAgenda rest).begin <;> rfl

/-- A register's address is an aligned one. -/
theorem registerAt_of_ofAddrOn {b : AegmuxBase} {a : Nat} {r : Reg} (h : Reg.ofAddrOn b a = some r) : registerAt b a 4 = some r := by
  unfold registerAt
  rw [if_pos ⟨(addrOn_of_ofAddrOn h).1 ▸ (addrOn_bound b r).1, rfl⟩, h]

/-- Settles O5: an address at which a register is found is that register's address. -/
theorem registerAccessIsItsCommand : Obligations.RegisterAccessIsItsCommand := by
  unfold Obligations.RegisterAccessIsItsCommand
  intro s a r h
  have hr := registerAt_of_ofAddrOn h
  refine ⟨(addrOn_of_ofAddrOn h).1, ?load, fun v => ?store⟩
  case load => unfold cpuLoad; rw [hr]
  case store => unfold cpuStore; rw [hr]

end Sys2Proof.Proofs.Step

/-!
PROOFS. What the register reads answer (spec/30_encoding.md R152): the value of the register, and nothing changes but the
reply and the counter of free values.
-/
namespace Sys2Proof.Proofs.Reads
open Sys2Proof Sys2Proof.Machine Sys2Proof.Proofs.Encoding

/-! ### Single bits as a word -/

/-- A bit of the word that holds `b` at bit `i`. -/
theorem getLsbD_bitAt (i j : Nat) (b : Bool) (hi : i < 32) : (bitAt i b).getLsbD j = (decide (j = i) && b) := by
  unfold bitAt
  cases b with
  | false => simp
  | true =>
    rw [if_pos rfl, BitVec.getLsbD_ofNat, Nat.testBit_two_pow]
    by_cases h : j = i
    · subst h; simp [hi]
    · simp [h, Ne.symm h]

/-- Two bits side by side. -/
theorem getLsbD_twoBits (i j k : Nat) (b c : Bool) (hi : i < 32) (hj : j < 32) :
    (bitAt i b ||| bitAt j c).getLsbD k = ((decide (k = i) && b) || (decide (k = j) && c)) := by
  rw [BitVec.getLsbD_or, getLsbD_bitAt _ _ _ hi, getLsbD_bitAt _ _ _ hj]

theorem bitAt_zero (b : Bool) : bitAt 0 b = if b then 1#32 else 0#32 := rfl

/-! ### Reads of coherence registers -/

theorem readGlobal_eq (s : State) (r : CohReg) :
    s.readGlobal r = if (s.opOf (cohBlock r)).map CohOp.reg = some r then 1#32 else 0#32 := by
  unfold State.readGlobal
  split
  · next o h => simp [h, bitAt_zero]
  · next h => simp [h]

theorem exec_read_global {i : Instr} {r : CohReg} (s : State) (h : exec i s = s.answer (s.readGlobal r)) :
    exec i s = .next { s with reply := .word (if (s.opOf (cohBlock r)).map CohOp.reg = some r then 1#32 else 0#32) } := by
  rw [h, readGlobal_eq]
  rfl

theorem readCount_idle (s : State) (r : CohReg) (h : (s.opOf (cohBlock r)).map CohOp.reg ≠ some r) :
    s.readCount r = .next { s with reply := .word 0#32 } := by
  unfold State.readCount
  split
  · next o ho => rw [if_neg fun e => h (by rw [ho, Option.map_some, e])]; rfl
  · rfl

/-- The remaining count of an operation is one that is not 0 and fits in 16 bits. -/
theorem remaining_bounds (stamp words : Nat) (h0 : 0 < words) (h1 : words < 0x10000) :
    remaining stamp words ≠ 0#32 ∧ (remaining stamp words).toNat < 0x10000 := by
  unfold remaining
  dsimp only
  have hf : field (Config.freeWord stamp) 0 16 < 0x10000 := Nat.mod_lt _ (by decide)
  generalize field (Config.freeWord stamp) 0 16 = n at hf
  have key : ∀ m : Nat, 0 < m → m < 0x10000 → BitVec.ofNat 32 m ≠ 0#32 ∧ (BitVec.ofNat 32 m).toNat < 0x10000 := by
    intro m hm hm'
    have e : (BitVec.ofNat 32 m).toNat = m := by rw [BitVec.toNat_ofNat]; omega
    exact ⟨fun k => by rw [k] at e; simp at e; omega, by omega⟩
  split
  · exact key _ h0 h1
  · exact key _ (by omega) hf

theorem readCount_running (s : State) (r : CohReg) (o : CohOp) (ho : s.opOf (cohBlock r) = some o) (hr : o.reg = r)
    (h0 : 0 < o.words) (h1 : o.words < 0x10000) :
    ∃ w : Word, w ≠ 0#32 ∧ w.toNat < 0x10000 ∧ s.readCount r = .next { s with reply := .word w, free := s.free + 1 } := by
  obtain ⟨hn, hl⟩ := remaining_bounds s.free o.words h0 h1
  refine ⟨_, hn, hl, ?_⟩
  unfold State.readCount
  rw [ho]
  dsimp only
  rw [if_pos hr]
  rfl

/-- Both cases of a word count read, for a command that is that read. -/
theorem exec_read_count {i : Instr} {r : CohReg} (s : State) (h : exec i s = s.readCount r) :
    ((s.opOf (cohBlock r)).map CohOp.reg ≠ some r → exec i s = .next { s with reply := .word 0#32 }) ∧
      ∀ o, s.opOf (cohBlock r) = some o → o.reg = r → 0 < o.words → o.words < 0x10000 →
        ∃ w : Word, w ≠ 0#32 ∧ w.toNat < 0x10000 ∧ exec i s = .next { s with reply := .word w, free := s.free + 1 } := by
  rw [h]
  exact ⟨readCount_idle s r, readCount_running s r⟩

/-! ### The statements -/

/-- Settles O1: sample words, each decoded by evaluation. -/
theorem decodeSampleWords : Obligations.DecodeSampleWords := by
  unfold Obligations.DecodeSampleWords
  refine ⟨?_, ?_, ?_, ?_, ?_, ?_, ?_, ?_, ?_, ?_, ?_, ?_, ?_, ?_, ?_, ?_, ?_⟩ <;> decide

/-- Settles O6. -/
theorem intcReadsAnswer : Obligations.IntcReadsAnswer := by
  unfold Obligations.IntcReadsAnswer
  intro s n
  refine ⟨rfl, rfl, rfl, rfl, rfl, rfl, fun m => ?mux, rfl, rfl, rfl, rfl, fun m h => ?aeg⟩
  case mux => match m with
    | 0 | 1 | 2 => rfl
  case aeg => rw [exec_aegmuxRead, execAegmuxRead, if_pos h]; rfl

/-- Settles O7: a masked flag is read bit by bit, and the guarded write has no effect. -/
theorem maskedEventFlagsRead : Obligations.MaskedEventFlagsRead := by
  unfold Obligations.MaskedEventFlagsRead
  intro s n
  refine ⟨rfl, fun i => ?bits, fun v h => ?write⟩
  case bits =>
    rw [BitVec.getLsbD_and, BitVec.getLsbD_not]
    cases s.intc.evtMask[n].getLsbD i <;> simp
  case write => exact supervisorWrite_allowed s .other (Reg.addr (.mevtflag n)) (fun s => s) h

/-- Settles O8: the status words are two bits, the others the registers. -/
theorem idmaAndMiscReadsAnswer : Obligations.IdmaAndMiscReadsAnswer := by
  unfold Obligations.IdmaAndMiscReadsAnswer
  intro s
  exact ⟨⟨_, rfl, fun i => getLsbD_twoBits 1 0 i _ _ (by decide) (by decide)⟩,
    ⟨_, rfl, fun i => getLsbD_twoBits 1 0 i _ _ (by decide) (by decide)⟩, rfl, rfl, rfl, rfl, rfl, rfl, rfl, rfl, rfl, rfl⟩

/-- Settles O9. -/
theorem l1CacheReadsAnswer : Obligations.L1CacheReadsAnswer := by
  unfold Obligations.L1CacheReadsAnswer
  intro s
  refine ⟨rfl, rfl, ⟨_, rfl, fun i => getLsbD_twoBits 16 0 i _ _ (by decide) (by decide)⟩,
    ⟨_, rfl, fun i => getLsbD_twoBits 16 0 i _ _ (by decide) (by decide)⟩, fun i r h => ?global, fun i h => ?bar, fun i r h => ?count⟩
  case global =>
    simp only [List.mem_cons, Prod.mk.injEq, List.not_mem_nil, or_false] at h
    rcases h with ⟨rfl, rfl⟩ | ⟨rfl, rfl⟩ | ⟨rfl, rfl⟩ | ⟨rfl, rfl⟩ <;> exact exec_read_global s rfl
  case bar =>
    simp only [List.mem_cons, List.not_mem_nil, or_false] at h
    rcases h with rfl | rfl | rfl | rfl <;> rfl
  case count =>
    simp only [List.mem_cons, Prod.mk.injEq, List.not_mem_nil, or_false] at h
    rcases h with ⟨rfl, rfl⟩ | ⟨rfl, rfl⟩ | ⟨rfl, rfl⟩ | ⟨rfl, rfl⟩ <;> exact exec_read_count s rfl

theorem l2cfgValue_toNat (s : State) : s.l2cfgValue.toNat =
    s.plat.l2.numMM.toNat * 2 ^ 24 + s.plat.l2.mmid.toNat * 2 ^ 16 + s.l2.cc.toNat * 2 ^ 3 + s.l2.mode.toNat := by
  have h1 := s.plat.l2.numMM.isLt
  have h2 := s.plat.l2.mmid.isLt
  have h3 := s.l2.cc.toNat_le
  have h4 := s.l2.mode.isLt
  unfold State.l2cfgValue
  rw [BitVec.toNat_ofNat]
  omega

/-- Settles O10. -/
theorem l2ReadsAnswer : Obligations.L2ReadsAnswer := by
  unfold Obligations.L2ReadsAnswer
  intro s
  refine ⟨⟨_, rfl, l2cfgValue_toNat s⟩, fun i r h => ?global, fun i h => ?bar, fun i r h => ?count, rfl, fun n h1 h15 => ?mar15,
    fun n h16 => ?mar16, fun n => ⟨rfl, rfl, _, rfl, fun i => ?pages⟩⟩
  case global =>
    simp only [List.mem_cons, Prod.mk.injEq, List.not_mem_nil, or_false] at h
    rcases h with ⟨rfl, rfl⟩ | ⟨rfl, rfl⟩ | ⟨rfl, rfl⟩ <;> exact exec_read_global s rfl
  case bar =>
    simp only [List.mem_cons, List.not_mem_nil, or_false] at h
    rcases h with rfl | rfl | rfl <;> rfl
  case count =>
    simp only [List.mem_cons, Prod.mk.injEq, List.not_mem_nil, or_false] at h
    rcases h with ⟨rfl, rfl⟩ | ⟨rfl, rfl⟩ | ⟨rfl, rfl⟩ <;> exact exec_read_count s rfl
  case mar15 =>
    rw [exec_marRead, execMarRead, State.marPc, if_neg (by omega), if_pos h15]
    rfl
  case mar16 =>
    rw [exec_marRead, execMarRead, State.marPc, if_neg (by omega), if_neg (by omega), Vector.getElem?_eq_getElem n.isLt]
    rfl
  case pages => exact getLsbD_twoBits 1 0 i _ _ (by decide) (by decide)

/-! ### Memory protection -/

theorem ifProtected_of_hasMp {s : State} (r : Reg) (o : Host.Outcome State Fault Refusal) (h : s.plat.hasMp = true) :
    s.ifProtected r o = o := by unfold State.ifProtected; rw [if_pos h]

theorem ifProtected_of_absent {s : State} (r : Reg) (o : Host.Outcome State Fault Refusal) (h : s.plat.hasMp = false) :
    s.ifProtected r o = .refused (.noSuchRegister r.addr) := by unfold State.ifProtected; rw [h]; rfl

/-- Settles O11: on a device with memory protection each read is the answer behind the check. -/
theorem protectionReadsAnswer : Obligations.ProtectionReadsAnswer := by
  unfold Obligations.ProtectionReadsAnswer
  intro s hm
  refine ⟨fun i x h => ?far, fun i x h => ?fsr, fun i x h => ?stat, fun i h => ?zero, fun n i h => ?key, fun n => ?p, fun n => ?d,
    fun n => ?l2⟩
  case far | fsr | stat =>
    simp only [List.mem_cons, Prod.mk.injEq, List.not_mem_nil, or_false] at h
    rcases h with ⟨rfl, rfl⟩ | ⟨rfl, rfl⟩ | ⟨rfl, rfl⟩ <;> exact ifProtected_of_hasMp _ _ hm
  case zero =>
    simp only [List.mem_cons, List.not_mem_nil, or_false] at h
    rcases h with rfl | rfl | rfl | rfl | rfl | rfl <;> exact ifProtected_of_hasMp _ _ hm
  case key =>
    simp only [List.mem_cons, List.not_mem_nil, or_false] at h
    rcases h with rfl | rfl | rfl <;> exact ifProtected_of_hasMp _ _ hm
  case p | d | l2 => exact ifProtected_of_hasMp _ _ hm

/-- Settles O60: each command of such a register stands behind the check for its unit. -/
theorem absentRegistersAreRefused : Obligations.AbsentRegistersAreRefused := by
  unfold Obligations.AbsentRegistersAreRefused
  intro s v
  refine ⟨fun hm r hr => ?mp, fun ha n => ⟨?read, ?write⟩⟩
  case mp =>
    have absent := fun q o => ifProtected_of_absent (s := s) q o hm
    simp only [List.mem_cons, List.not_mem_nil, or_false] at hr
    rcases hr with hr | ⟨n, hr⟩ | ⟨n, hr⟩ | ⟨n, rfl⟩
    · rcases hr with rfl | rfl | rfl | rfl | rfl | rfl | rfl | rfl | rfl | rfl | rfl | rfl | rfl | rfl | rfl <;>
        exact ⟨absent _ _, absent _ _⟩
    · rcases hr with rfl | rfl | rfl <;> exact ⟨absent _ _, absent _ _⟩
    · rcases hr with rfl | rfl <;> exact ⟨absent _ _, absent _ _⟩
    · exact ⟨absent _ _, absent _ _⟩
  case read => rw [exec_aegmuxRead, execAegmuxRead, ha]; rfl
  case write => rw [exec_aegmuxWrite, execAegmuxWrite, ha]; rfl

end Sys2Proof.Proofs.Reads

/-!
PROOFS. Writes of the interrupt controller, the power-down controller, the bus error registers and the arbitration registers
(spec/30_encoding.md R152): an allowed write is its effect and an empty reply, a refused one the fault of the owner.
-/
namespace Sys2Proof.Proofs.Writes
open Sys2Proof Sys2Proof.Machine

/-- The bits of `EVTSET0` that stand for events 0 to 3 set nothing. -/
theorem getLsbD_dropCombined (v : Word) (i : Nat) (hi : i < 32) :
    (v &&& ~~~combinedBits).getLsbD i = (decide (4 ≤ i) && v.getLsbD i) := by
  rw [BitVec.getLsbD_and, BitVec.getLsbD_not, Bool.and_comm]
  have low : ∀ j : Fin 32, (decide (j.val < 32) && !combinedBits.getLsbD j.val) = decide (4 ≤ j.val) := by decide
  rw [low ⟨i, hi⟩]

/-- The events a write of `EVTSETn` pulses. -/
theorem mem_pulsesOf_evtset (n : Fin 4) (v : Word) (e : Nat) :
    e ∈ eventsOf n (if n = 0 then v &&& ~~~combinedBits else v) ↔ 4 ≤ e ∧ e / 32 = n.val ∧ v.getLsbD (e % 32) = true := by
  rw [mem_eventsOf]
  by_cases hn : n = 0
  · subst hn
    rw [if_pos rfl, getLsbD_dropCombined v _ (Nat.mod_lt _ (by decide))]
    simp only [Bool.and_eq_true, decide_eq_true_eq, Fin.val_zero]
    constructor
    · rintro ⟨h, h4, hv⟩; exact ⟨by omega, h, hv⟩
    · rintro ⟨h4, h, hv⟩; exact ⟨h, by omega, hv⟩
  · rw [if_neg hn]
    have : n.val ≠ 0 := fun h => hn (Fin.ext h)
    constructor
    · rintro ⟨h, hv⟩; exact ⟨by omega, h, hv⟩
    · rintro ⟨_, h, hv⟩; exact ⟨h, hv⟩

/-- A write of `EVTSETn` sets the flags of its 1 bits but those of events 0 to 3. -/
theorem setEvents_flag (s : State) (n m : Fin 4) (v : Word) :
    (s.setEvents n v).intc.evtFlag[m] =
      if m = n then s.intc.evtFlag[m] ||| (if n = 0 then v &&& 0xFFFFFFF0#32 else v) else s.intc.evtFlag[m] := by
  show (s.intc.evtFlag.set n _)[m] = _
  by_cases h : m = n
  · subst h; rw [if_pos rfl]; exact Vector.getElem_set_self _
  · rw [if_neg h]
    exact Vector.getElem_set_ne _ _ fun e => h (Fin.ext e.symm)

theorem execIntmuxWrite_succ (s : State) (m : Fin 3) (v : Word) (h : s.mayWrite = true) :
    execIntmuxWrite m.succ v s =
      .next { s with intc := { s.intc with intMux := s.intc.intMux.set m (v &&& 0x7F7F7F7F#32) }, reply := .none } := by
  match m with
  | 0 => exact if_pos h
  | 1 => exact if_pos h
  | 2 => exact if_pos h

/-- Settles O12: each allowed write is its effect; what `EVTSETn` pulses is read off the bits of the value written. -/
theorem intcWritesTakeEffect : Obligations.IntcWritesTakeEffect := by
  intro s n v h
  refine ⟨⟨(s.setEvents n v).intc, if_pos h, rfl, fun m => setEvents_flag s n m v, fun e => ?_⟩,
    if_pos h, if_pos h, if_pos h,
    fun m => execIntmuxWrite_succ s m v h, rfl, (if_pos h).trans ?_, if_pos h,
    fun m ha => ?_, if_pos h, if_pos h,
    if_pos h, if_pos h⟩
  · show e ∈ s.intc.pulses ++ _ ↔ _
    rw [List.mem_append, mem_pulsesOf_evtset]
  · show State.done (if v.getLsbD 0 then _ else s) = _
    cases v.getLsbD 0 <;> rfl
  · rw [exec_aegmuxWrite]; unfold execAegmuxWrite
    rw [if_pos ha]
    exact if_pos h

/-- Settles O13: `MEGPD` is the one field of `PDCCMD`. -/
theorem pdccmdHoldsMegpd : Obligations.PdccmdHoldsMegpd := by
  refine ⟨fun s v => ⟨mayWrite_iff s, fun h => if_pos h,
    fun h => if_neg (ne_true_of_eq_false h), ?_, ?_, ?_⟩, rfl⟩
  · show State.answer s _ = State.answer s _
    congr 1
    cases s.pdc.megpd <;> rfl
  · unfold State.enterIdle; cases s.pdc.megpd <;> rfl
  · unfold State.enterIdle
    cases s.pdc.megpd with
    | true => simp [State.setPower, State.l1pDown, State.l1dDown, State.l2Down]
    | false => rfl

/-- Settles O14: only `BUSERRCLR` has an effect. -/
theorem miscWritesTakeEffect : Obligations.MiscWritesTakeEffect := by
  refine fun s v => ⟨fun h => (if_pos h).trans ?_, rfl, rfl, rfl, rfl⟩
  show State.done (if v.getLsbD 0 then _ else s) = _
  cases v.getLsbD 0 <;> rfl

/-! ### Arbitration registers -/

/-- A register without a reserved bit set has zeros outside the mask. -/
theorem reserved_zero {m v : Word} (h : onlyBits m v = true) : v &&& ~~~m = 0#32 := by
  simpa [onlyBits] using h

/-- Settles O15: an allowed write, a refused write and a read of every arbitration register. -/
theorem arbitrationRegistersHoldTheirFields : Obligations.ArbitrationRegistersHoldTheirFields := by
  intro s v
  refine ⟨fun h => ?allowed, fun h => ⟨?l1d, ?l2, ?emc⟩, ?read⟩
  case allowed =>
    exact ⟨if_pos h, if_pos h, if_pos h,
      if_pos h, if_pos h, if_pos h,
      if_pos h, if_pos h, if_pos h,
      if_pos h, if_pos h, if_pos h⟩
  case l1d =>
    simp only [List.mem_cons, Prod.mk.injEq, List.not_mem_nil, or_false]
    rintro i a (⟨rfl, rfl⟩ | ⟨rfl, rfl⟩ | ⟨rfl, rfl⟩ | ⟨rfl, rfl⟩) <;> exact if_neg (ne_true_of_eq_false h)
  case l2 =>
    simp only [List.mem_cons, Prod.mk.injEq, List.not_mem_nil, or_false]
    rintro i a (⟨rfl, rfl⟩ | ⟨rfl, rfl⟩ | ⟨rfl, rfl⟩ | ⟨rfl, rfl⟩) <;> exact if_neg (ne_true_of_eq_false h)
  case emc =>
    simp only [List.mem_cons, Prod.mk.injEq, List.not_mem_nil, or_false]
    rintro i a (⟨rfl, rfl⟩ | ⟨rfl, rfl⟩ | ⟨rfl, rfl⟩ | ⟨rfl, rfl⟩) <;> exact if_neg (ne_true_of_eq_false h)
  case read =>
    simp only [List.mem_cons, Prod.mk.injEq, List.not_mem_nil, or_false]
    simp only [State.bwmReserved, Bool.and_eq_true]
    rintro i w m (⟨rfl, rfl, rfl⟩ | ⟨rfl, rfl, rfl⟩ | ⟨rfl, rfl, rfl⟩ | ⟨rfl, rfl, rfl⟩ | ⟨rfl, rfl, rfl⟩ | ⟨rfl, rfl, rfl⟩ |
      ⟨rfl, rfl, rfl⟩ | ⟨rfl, rfl, rfl⟩ | ⟨rfl, rfl, rfl⟩ | ⟨rfl, rfl, rfl⟩ | ⟨rfl, rfl, rfl⟩ | ⟨rfl, rfl, rfl⟩) <;>
    exact ⟨rfl, fun hr => by
      obtain ⟨⟨⟨⟨⟨⟨⟨⟨⟨⟨⟨h1, h2⟩, h3⟩, h4⟩, h5⟩, h6⟩, h7⟩, h8⟩, h9⟩, h10⟩, h11⟩, h12⟩ := hr
      exact reserved_zero ‹_›⟩

/-! ### Refused writes outside L1P, L1D and L2 -/

/-- What the refused write of a register that no block owns answers. -/
def dropped (s : State) : Host.Outcome State Fault Refusal :=
  match s.plat.regFaultEvent with
  | .none => .next { s with reply := .none }
  | .sysCmpa => .next ((s.raise 119).setReply .none)
  | .emcCmpa => .next ((s.raise 126).setReply .none)

theorem registerPermissionFault_other (s : State) (a : Nat) : (s.registerPermissionFault .other a).done = dropped s := by
  unfold State.registerPermissionFault dropped
  cases s.plat.regFaultEvent <;> rfl

theorem execIntmuxWrite_succ_denied (s : State) (m : Fin 3) (v : Word) (h : ¬ s.mayWrite = true) :
    execIntmuxWrite m.succ v s = dropped s := by
  match m with
  | 0 => exact (if_neg h).trans (registerPermissionFault_other s _)
  | 1 => exact (if_neg h).trans (registerPermissionFault_other s _)
  | 2 => exact (if_neg h).trans (registerPermissionFault_other s _)

/-- Settles O34: every one of these commands is a supervisor write of a register that no block owns. -/
theorem userWritesElsewhereAreDropped : Obligations.UserWritesElsewhereAreDropped := by
  intro s v n i hm hi
  have h : ¬ s.mayWrite = true := ne_true_of_eq_false hm
  show exec i s = dropped s
  rcases hi with hi | ⟨m, rfl⟩ | ⟨ha, m, rfl⟩
  · simp only [List.mem_cons, List.not_mem_nil, or_false] at hi
    rcases hi with rfl | rfl | rfl | rfl | rfl | rfl | rfl | rfl | rfl | rfl | rfl | rfl | rfl | rfl | rfl | rfl <;>
      exact (if_neg h).trans (registerPermissionFault_other s _)
  · exact execIntmuxWrite_succ_denied s m v h
  · rw [exec_aegmuxWrite]; unfold execAegmuxWrite
    rw [if_pos ha]
    exact (if_neg h).trans (registerPermissionFault_other s _)

end Sys2Proof.Proofs.Writes

/-!
PROOFS. The memory protection registers of L1P, L1D and L2 (spec/46_mpa.md): what a fault records, the writes, the lock and
its sequence, and the refused user writes.
-/
namespace Sys2Proof.Proofs.Protection
open Sys2Proof Sys2Proof.Machine Sys2Proof.Proofs.Commands Sys2Proof.Proofs.Reads

/-! ### What a fault records -/

theorem records_iff (x : Block) (o : Origin) (fsr : Word) : records x o fsr = true ↔
    fsr = 0#32 ∨ ((x = .l1p ∨ x = .l2) ∧ o = .local ∧ fsr.getLsbD 8 = false) := by
  simp only [records, bit, Bool.or_eq_true, Bool.and_eq_true, decide_eq_true_eq, Bool.not_eq_true']
  cases x <;> simp

/-- A requestor's ID in its field of the fault status. -/
theorem ofNat_id (id : Nat) : BitVec.ofNat 32 (id % 128 * 2 ^ 9) = BitVec.ofNat 32 (id % 128) <<< 9 := by
  apply BitVec.eq_of_toNat_eq
  simp only [BitVec.toNat_ofNat, BitVec.toNat_shiftLeft, Nat.shiftLeft_eq]
  omega

/-- Settles O30: the condition, the status and the event of `RecordFault`, each by its own table. -/
theorem recordFaultKeepsTheFirstFault : Obligations.RecordFaultKeepsTheFirstFault := by
  intro s x o addr p k id hmp who type event
  have hwhen : (s.plat.hasMp && records x o (s.mp x).fsr) = true ↔
      (s.mp x).fsr = 0#32 ∨ ((x = .l1p ∨ x = .l2) ∧ o = .local ∧ (s.mp x).fsr.getLsbD 8 = false) := by
    rw [hmp, Bool.true_and, records_iff]
  have hstatus : faultStatus o p k id = who ||| type := by
    have htype : bitAt (typeBit p k) true &&& 0x00000036#32 = type := by cases p <;> cases k <;> rfl
    rw [← htype]
    rcases o with _ | _
    · rfl
    · exact congrArg (· ||| (bitAt (typeBit p k) true &&& 0x00000036#32)) (ofNat_id id)
  have hevent : faultEvent x o = event := by cases x <;> cases o <;> rfl
  unfold State.recordFault
  rw [hstatus, hevent]
  exact if_congr hwhen rfl rfl

/-! ### Protected supervisor writes -/

/-- A supervisor write of a memory protection register on a device that has it. -/
theorem protected_allowed {s : State} (hmp : s.plat.hasMp = true) (h : s.mayWrite = true) (r : Reg) (o : Owner) (a : Nat)
    (f : State → State) : s.ifProtected r (s.supervisorWrite o a f) = .next ((f s).setReply .none) := by
  rw [ifProtected_of_hasMp r _ hmp, supervisorWrite_allowed s o a f h]; rfl

/-! ### The lock -/

/-- The state `s` after commands that answer nothing and change only the lock of `x`. -/
def locked (s : State) (x : Block) (l : Lock) : State := (s.setLock x l).setReply .none

theorem locked_mp (s : State) (x : Block) (l : Lock) : (locked s x l).mp x = { s.mp x with lock := l } := by
  cases x <;> rfl

theorem locked_setLock (s : State) (x : Block) (l l' : Lock) : (locked s x l).setLock x l' = locked s x l' := by
  cases x <;> rfl

theorem locked_plat (s : State) (x : Block) (l : Lock) : (locked s x l).plat = s.plat := by cases x <;> rfl

theorem locked_cpu (s : State) (x : Block) (l : Lock) : (locked s x l).cpu = s.cpu := by cases x <;> rfl

theorem complete_iff (l : Lock) : l.complete = true ↔ l.armed = true ∧ ∀ n : Fin 4, l.seen[n] = true := by
  simp only [Lock.complete, Bool.and_eq_true]
  constructor
  · rintro ⟨⟨⟨⟨ha, h0⟩, h1⟩, h2⟩, h3⟩
    exact ⟨ha, fun n => match n with | 0 => h0 | 1 => h1 | 2 => h2 | 3 => h3⟩
  · rintro ⟨ha, h⟩
    exact ⟨⟨⟨⟨ha, h 0⟩, h 1⟩, h 2⟩, h 3⟩

theorem matches_iff (l : Lock) (ks : List Nat) :
    l.matches ks = true ↔ ∀ n : Fin 4, n.val ∈ ks → l.tmp[n] = l.key[n] := by
  simp only [Lock.matches, List.all_eq_true, beq_iff_eq]
  constructor
  · intro h n hn
    have := h n.val hn
    rwa [Vector.getElem?_eq_getElem n.isLt, Vector.getElem?_eq_getElem n.isLt, Option.some.injEq] at this
  · intro h i hi
    by_cases hlt : i < 4
    · rw [Vector.getElem?_eq_getElem hlt, Vector.getElem?_eq_getElem hlt]
      exact congrArg some (h ⟨i, hlt⟩ hi)
    · rw [Vector.getElem?_eq_none (Nat.le_of_not_lt hlt), Vector.getElem?_eq_none (Nat.le_of_not_lt hlt)]

/-- `c` is the lock command of `x`, at address `a`. -/
def IsLockCmd (c : Word → Instr) (x : Block) (a : Nat) : Prop :=
  ∀ (s : State) (v : Word), s.plat.hasMp = true → s.mayWrite = true →
    exec (c v) s = .next ((s.writeLockCmd x a v).setReply .none)

/-- `key n` is the command of key register `n` of `x`, at address `a n`. -/
def IsKeyCmd (key : Fin 4 → Word → Instr) (x : Block) (a : Fin 4 → Nat) : Prop :=
  ∀ (s : State) (n : Fin 4) (v : Word), s.plat.hasMp = true → s.mayWrite = true →
    exec (key n v) s = .next ((s.writeKey x (a n) n v).setReply .none)

theorem isLockCmd_l1p : IsLockCmd .l1pmplkcmdWrite .l1p 0x0184A510 := fun _ v hmp h =>
  protected_allowed hmp h .l1pmplkcmd _ _ fun s => s.writeLockCmd .l1p 0x0184A510 v
theorem isLockCmd_l1d : IsLockCmd .l1dmplkcmdWrite .l1d 0x0184AD10 := fun _ v hmp h =>
  protected_allowed hmp h .l1dmplkcmd _ _ fun s => s.writeLockCmd .l1d 0x0184AD10 v
theorem isLockCmd_l2 : IsLockCmd .l2mplkcmdWrite .l2 0x0184A110 := fun _ v hmp h =>
  protected_allowed hmp h .l2mplkcmd _ _ fun s => s.writeLockCmd .l2 0x0184A110 v

theorem isKeyCmd_l1p : IsKeyCmd .l1pmplkWrite .l1p (0x0184A500 + 4 * ·.val) := fun _ n v hmp h =>
  protected_allowed hmp h (.l1pmplk n) _ _ fun s => s.writeKey .l1p (0x0184A500 + 4 * n) n v
theorem isKeyCmd_l1d : IsKeyCmd .l1dmplkWrite .l1d (0x0184AD00 + 4 * ·.val) := fun _ n v hmp h =>
  protected_allowed hmp h (.l1dmplk n) _ _ fun s => s.writeKey .l1d (0x0184AD00 + 4 * n) n v
theorem isKeyCmd_l2 : IsKeyCmd .l2mplkWrite .l2 (0x0184A100 + 4 * ·.val) := fun _ n v hmp h =>
  protected_allowed hmp h (.l2mplk n) _ _ fun s => s.writeKey .l2 (0x0184A100 + 4 * n) n v

/-- A command bit, from the value of the three of them. -/
theorem bit_command (v : Word) (i : Nat) (hi : i < 3) : bit v i = (v.toNat % 8).testBit i := by
  show v.toNat.testBit i = (v.toNat % 2 ^ 3).testBit i
  rw [Nat.testBit_mod_two_pow, decide_eq_true hi, Bool.true_and]

/-- `XMPLKCMD` by the value of its three command bits. -/
theorem writeLockCmd_eq (s : State) (x : Block) (a : Nat) (v : Word) : s.writeLockCmd x a v =
    let s1 := if (v.toNat % 8).testBit 2 then s.setLock x (s.mp x).lock.rearm else s
    let s2 := if (v.toNat % 8).testBit 1 then s1.engage x a else s1
    if (v.toNat % 8).testBit 0 then s2.disengage x a else s2 := by
  unfold State.writeLockCmd
  rw [bit_command v 0 (by decide), bit_command v 1 (by decide), bit_command v 2 (by decide)]

theorem writeLockCmd_idle {v : Word} (s : State) (x : Block) (a : Nat) (h : v.toNat % 8 = 0) : s.writeLockCmd x a v = s := by
  rw [writeLockCmd_eq, h]; rfl
theorem writeLockCmd_unlock {v : Word} (s : State) (x : Block) (a : Nat) (h : v.toNat % 8 = 1) :
    s.writeLockCmd x a v = s.disengage x a := by rw [writeLockCmd_eq, h]; rfl
theorem writeLockCmd_lock {v : Word} (s : State) (x : Block) (a : Nat) (h : v.toNat % 8 = 2) :
    s.writeLockCmd x a v = s.engage x a := by rw [writeLockCmd_eq, h]; rfl
theorem writeLockCmd_keyr {v : Word} (s : State) (x : Block) (a : Nat) (h : v.toNat % 8 = 4) :
    s.writeLockCmd x a v = s.setLock x (s.mp x).lock.rearm := by rw [writeLockCmd_eq, h]; rfl

/-! A command leaves the reply alone, so that a command carried out after another one may forget its reply. -/

theorem recordFault_setReply (s : State) (x o a p k id) (r : Reply) :
    (s.setReply r).recordFault x o a p k id = (s.recordFault x o a p k id).setReply r := by
  unfold State.recordFault
  rw [apply_ite (State.setReply · r)]
  cases x <;> rfl

theorem engage_setReply (s : State) (x : Block) (a : Nat) (r : Reply) :
    (s.setReply r).engage x a = (s.engage x a).setReply r := by
  unfold State.engage State.lockFault
  rw [show (s.setReply r).mp x = s.mp x by cases x <;> rfl]
  simp only [apply_ite (State.setReply · r), ← recordFault_setReply]
  cases x <;> rfl

theorem disengage_setReply (s : State) (x : Block) (a : Nat) (r : Reply) :
    (s.setReply r).disengage x a = (s.disengage x a).setReply r := by
  unfold State.disengage State.lockFault
  rw [show (s.setReply r).mp x = s.mp x by cases x <;> rfl]
  simp only [apply_ite (State.setReply · r), ← recordFault_setReply]
  cases x <;> rfl

theorem writeLockCmd_setReply (s : State) (x : Block) (a : Nat) (v : Word) (r : Reply) :
    (s.setReply r).writeLockCmd x a v = (s.writeLockCmd x a v).setReply r := by
  unfold State.writeLockCmd
  have hkeyr : (s.setReply r).setLock x ((s.setReply r).mp x).lock.rearm = (s.setLock x (s.mp x).lock.rearm).setReply r := by
    cases x <;> rfl
  simp only [apply_ite (State.setReply · r), hkeyr]
  simp only [← disengage_setReply, ← engage_setReply, apply_ite (State.setReply · r)]

/-! ### What a lock command does -/

/-- A lock fault of `x` at `a`: the sequence is over and a local supervisor write fault is recorded. -/
def lockRefused (s : State) (x : Block) (a : Nat) : State :=
  (s.setMp x { s.mp x with lock := { (s.mp x).lock with armed := false } }).recordFault x .local a .supervisor .write
    s.plat.cpuId

theorem lockFault_setLock (s : State) (x : Block) (a : Nat) :
    (s.setLock x { (s.mp x).lock with armed := false }).lockFault x a = lockRefused s x a := by cases x <;> rfl

section
variable {s : State} {x : Block} {l : Lock} (hl : (s.mp x).lock = l) (a : Nat)
include hl

theorem writeKey_taken {n : Fin 4} (v : Word) (h : l.armed = true ∧ l.seen[n] = false) :
    s.writeKey x a n v = s.setLock x { l with tmp := l.tmp.set n v, seen := l.seen.set n true } := by
  subst hl
  exact if_pos (by rw [h.1, h.2]; rfl)

theorem writeKey_refused {n : Fin 4} (v : Word) (h : ¬ (l.armed = true ∧ l.seen[n] = false)) :
    s.writeKey x a n v = lockRefused s x a := by
  subst hl
  rw [← lockFault_setLock]
  exact if_neg (by simpa using h)

theorem engage_full (h : (l.armed = true ∧ ∀ n : Fin 4, l.seen[n] = true) ∧ l.lk = false) :
    s.engage x a = s.setLock x { l with key := l.tmp, lk := true, armed := false } := by
  subst hl
  exact if_pos (by rw [(complete_iff _).2 h.1, h.2]; rfl)

theorem engage_refused (h : ¬ ((l.armed = true ∧ ∀ n : Fin 4, l.seen[n] = true) ∧ l.lk = false)) :
    s.engage x a = lockRefused s x a := by
  subst hl
  rw [← lockFault_setLock]
  refine if_neg fun hc => h ?_
  rw [Bool.and_eq_true, complete_iff, Bool.not_eq_true'] at hc
  exact ⟨hc.2, hc.1⟩

theorem disengage_full (h : (l.armed = true ∧ ∀ n : Fin 4, l.seen[n] = true) ∧ l.lk = true ∧
    ∀ n : Fin 4, n.val ∈ platKeys s.plat x → l.tmp[n] = l.key[n]) :
    s.disengage x a = s.setLock x { l with lk := false, armed := false } := by
  subst hl
  exact if_pos (by rw [(complete_iff _).2 h.1, h.2.1, (matches_iff _ _).2 h.2.2]; rfl)

theorem disengage_refused (h : ¬ ((l.armed = true ∧ ∀ n : Fin 4, l.seen[n] = true) ∧ l.lk = true ∧
    ∀ n : Fin 4, n.val ∈ platKeys s.plat x → l.tmp[n] = l.key[n])) :
    s.disengage x a = lockRefused s x a := by
  subst hl
  rw [← lockFault_setLock]
  refine if_neg fun hc => h ?_
  rw [Bool.and_eq_true, Bool.and_eq_true, complete_iff, matches_iff] at hc
  exact ⟨hc.1.2, hc.1.1, hc.2⟩

end

/-- A command leaves the device and the privilege, and so what the next command is checked against. -/
theorem mayWrite_of_keeps {s t : State} (k : Keeps s t) : t.mayWrite = s.mayWrite := by
  unfold State.mayWrite; rw [k.plat, k.priv]

section
variable {c : Word → Instr} {x : Block} {a : Nat} (hc : IsLockCmd c x a) {s : State} (hmp : s.plat.hasMp = true)
  (h : s.mayWrite = true)
include hc hmp h

/-- A lock command at the head of a list of commands. -/
theorem run_lockCmd (v : Word) (is : List Instr) : runCommands (c v :: is) s =
    runCommands is ((s.writeLockCmd x a v).setReply .none) := run_cons _ _ _ _ (hc s v hmp h)

/-- Two lock commands one after the other. -/
theorem run_lockCmd_two (v w : Word) (is : List Instr) : runCommands (c v :: c w :: is) s =
    runCommands is (((s.writeLockCmd x a v).writeLockCmd x a w).setReply .none) := by
  have k := keeps_exec (hc s v hmp h)
  rw [run_lockCmd hc hmp h, run_lockCmd hc (k.plat ▸ hmp) ((mayWrite_of_keeps k).trans h), writeLockCmd_setReply]
  rfl

/-- Several command bits act as the commands one after the other. -/
theorem lockCmd_bits (v : Word) :
    (v.toNat % 8 = 3 → exec (c v) s = runCommands [c 2#32, c 1#32] s) ∧
    (v.toNat % 8 = 5 → exec (c v) s = runCommands [c 4#32, c 1#32] s) ∧
    (v.toNat % 8 = 6 → exec (c v) s = runCommands [c 4#32, c 2#32] s) ∧
    (v.toNat % 8 = 7 → exec (c v) s = runCommands [c 4#32, c 2#32, c 1#32] s) := by
  have two : ∀ w1 w2 : Word, s.writeLockCmd x a v = (s.writeLockCmd x a w1).writeLockCmd x a w2 →
      exec (c v) s = runCommands [c w1, c w2] s := by
    intro w1 w2 e
    rw [hc s v hmp h, run_lockCmd_two hc hmp h, e]; rfl
  refine ⟨fun hv => two _ _ ?_, fun hv => two _ _ ?_, fun hv => two _ _ ?_, fun hv => ?_⟩
  · rw [writeLockCmd_unlock (v := 1#32) _ x a rfl, writeLockCmd_lock (v := 2#32) _ x a rfl, writeLockCmd_eq, hv]; rfl
  · rw [writeLockCmd_unlock (v := 1#32) _ x a rfl, writeLockCmd_keyr (v := 4#32) _ x a rfl, writeLockCmd_eq, hv]; rfl
  · rw [writeLockCmd_lock (v := 2#32) _ x a rfl, writeLockCmd_keyr (v := 4#32) _ x a rfl, writeLockCmd_eq, hv]; rfl
  · have k := keeps_exec (hc s 4#32 hmp h)
    rw [hc s v hmp h, run_lockCmd hc hmp h, run_lockCmd_two hc (k.plat ▸ hmp) ((mayWrite_of_keeps k).trans h),
      writeLockCmd_setReply, writeLockCmd_setReply, writeLockCmd_unlock (v := 1#32) _ x a rfl, writeLockCmd_lock (v := 2#32) _ x a rfl,
      writeLockCmd_keyr (v := 4#32) _ x a rfl, writeLockCmd_eq, hv]
    rfl

end

/-! ### Writes -/

/-- A write of a page entry behind the lock. -/
theorem page_write {s t : State} (hmp : s.plat.hasMp = true) (h : s.mayWrite = true) (r : Reg) (o : Owner) (x : Block) (a : Nat)
    (f : State → State) (ht : (f s).setReply .none = t) :
    s.ifProtected r (s.supervisorWrite o a fun s => if (s.mp x).lock.lk then s.lockFault x a else f s) =
      if (s.mp x).lock.lk then .next ((s.recordFault x .local a .supervisor .write s.plat.cpuId).setReply .none)
      else .next t := by
  rw [protected_allowed hmp h, ← ht]
  cases (s.mp x).lock.lk <;> rfl

/-- Settles O31: each write by its form, the lock commands of the three blocks by one argument. -/
theorem protectionWritesTakeEffect : Obligations.ProtectionWritesTakeEffect := by
  intro s v hmp hpriv
  have h := mayWrite_supervisor s hpriv
  refine ⟨?fcr, ?readOnly, fun n => ?p, fun n => ?d, fun n => ?l2, ?key, ?cmd, ?combined⟩
  case fcr =>
    simp only [List.mem_cons, Prod.mk.injEq, List.not_mem_nil, or_false]
    rintro i x (⟨rfl, rfl⟩ | ⟨rfl, rfl⟩ | ⟨rfl, rfl⟩)
    · exact protected_allowed hmp h .l1pmpfcr _ _ fun s => s.clearFault .l1p v
    · exact protected_allowed hmp h .l1dmpfcr _ _ fun s => s.clearFault .l1d v
    · exact protected_allowed hmp h .l2mpfcr _ _ fun s => s.clearFault .l2 v
  case readOnly =>
    simp only [List.mem_cons, List.not_mem_nil, or_false]
    have ignored : ∀ (r : Reg) (o : Owner), s.ifProtected r (s.supervisorWrite o r.addr fun s => s) =
      .next { s with reply := .none } := fun r o => protected_allowed hmp h r o _ fun s => s
    rintro i (rfl | rfl | rfl | rfl | rfl | rfl | rfl | rfl | rfl)
    · exact ignored .l1pmpfar _
    · exact ignored .l1dmpfar _
    · exact ignored .l2mpfar _
    · exact ignored .l1pmpfsr _
    · exact ignored .l1dmpfsr _
    · exact ignored .l2mpfsr _
    · exact ignored .l1pmplkstat _
    · exact ignored .l1dmplkstat _
    · exact ignored .l2mplkstat _
  case p => exact page_write hmp h (.l1pmppa n) _ .l1p _ _ rfl
  case d => exact page_write hmp h (.l1dmppa n) _ .l1d _ _ rfl
  case l2 => exact page_write hmp h (.l2mppa n) _ .l2 _ _ rfl
  case key =>
    have takes : ∀ (key : Fin 4 → Word → Instr) (x : Block) (b : Fin 4 → Nat), IsKeyCmd key x b → ∀ n : Fin 4,
        exec (key n v) s = if (s.mp x).lock.armed = true ∧ (s.mp x).lock.seen[n] = false
          then .next ((s.setLock x { (s.mp x).lock with
            tmp := (s.mp x).lock.tmp.set n v, seen := (s.mp x).lock.seen.set n true }).setReply .none)
          else .next ((lockRefused s x (b n)).setReply .none) := by
      intro key x b hk n
      rw [hk s n v hmp h]
      split
      · next hs => rw [writeKey_taken rfl _ v hs]
      · next hs => rw [writeKey_refused rfl _ v hs]
    simp only [List.mem_cons, Prod.mk.injEq, List.not_mem_nil, or_false]
    rintro n i x b (⟨rfl, rfl, rfl⟩ | ⟨rfl, rfl, rfl⟩ | ⟨rfl, rfl, rfl⟩)
    · exact takes _ _ _ isKeyCmd_l1p n
    · exact takes _ _ _ isKeyCmd_l1d n
    · exact takes _ _ _ isKeyCmd_l2 n
  case cmd =>
    have acts : ∀ (c : Word → Instr) (x : Block) (b : Nat), IsLockCmd c x b →
        let l := (s.mp x).lock
        let full := l.armed = true ∧ ∀ n : Fin 4, l.seen[n] = true
        let agree := ∀ n : Fin 4, n.val ∈ platKeys s.plat x → l.tmp[n] = l.key[n]
        (∃ t, exec (c v) s = .next t) ∧
        (v.toNat % 8 = 0 → exec (c v) s = .next (s.setReply .none)) ∧
        (v.toNat % 8 = 4 → exec (c v) s = .next ((s.setLock x l.rearm).setReply .none)) ∧
        (v.toNat % 8 = 2 → (full ∧ l.lk = false → exec (c v) s = .next ((s.setLock x
            { l with key := l.tmp, lk := true, armed := false }).setReply .none)) ∧
          (¬(full ∧ l.lk = false) → exec (c v) s = .next ((lockRefused s x b).setReply .none))) ∧
        (v.toNat % 8 = 1 → (full ∧ l.lk = true ∧ agree → exec (c v) s = .next ((s.setLock x
            { l with lk := false, armed := false }).setReply .none)) ∧
          (¬(full ∧ l.lk = true ∧ agree) → exec (c v) s = .next ((lockRefused s x b).setReply .none))) := by
      intro c x b hc l full agree
      have e := hc s v hmp h
      refine ⟨⟨_, e⟩, fun hv => ?_, fun hv => ?_, fun hv => ⟨fun hs => ?_, fun hs => ?_⟩, fun hv => ⟨fun hs => ?_, fun hs => ?_⟩⟩
      · rw [e, writeLockCmd_idle s x b hv]
      · rw [e, writeLockCmd_keyr s x b hv]
      · rw [e, writeLockCmd_lock s x b hv, engage_full rfl b hs]
      · rw [e, writeLockCmd_lock s x b hv, engage_refused rfl b hs]
      · rw [e, writeLockCmd_unlock s x b hv, disengage_full rfl b hs]
      · rw [e, writeLockCmd_unlock s x b hv, disengage_refused rfl b hs]
    simp only [List.mem_cons, Prod.mk.injEq, List.not_mem_nil, or_false]
    rintro i x b (⟨rfl, rfl, rfl⟩ | ⟨rfl, rfl, rfl⟩ | ⟨rfl, rfl, rfl⟩)
    · exact acts _ _ _ isLockCmd_l1p
    · exact acts _ _ _ isLockCmd_l1d
    · exact acts _ _ _ isLockCmd_l2
  case combined =>
    simp only [List.mem_cons, List.not_mem_nil, or_false]
    rintro c (rfl | rfl | rfl)
    · exact lockCmd_bits isLockCmd_l1p hmp h v
    · exact lockCmd_bits isLockCmd_l1d hmp h v
    · exact lockCmd_bits isLockCmd_l2 hmp h v

/-! ### The lock sequence -/

/-- The lock with one more key word of the sequence under way. -/
def withKeyWord (k : Fin 4 → Word) (l : Lock) (n : Fin 4) : Lock :=
  { l with tmp := l.tmp.set n (k n), seen := l.seen.set n true }

theorem getElem_set_other {α : Type} (w : Vector α 4) {i j : Fin 4} (e : α) (h : j ≠ i) : (w.set i e)[j] = w[j] :=
  Vector.getElem_set_ne _ _ fun hij => h (Fin.ext hij.symm)

/-- Key words in any order: what stays, what is seen and what is stored. -/
theorem foldl_withKeyWord (k : Fin 4 → Word) (p : List (Fin 4)) (l : Lock) :
    let m := p.foldl (withKeyWord k) l
    m.lk = l.lk ∧ m.key = l.key ∧ m.armed = l.armed ∧ (∀ n : Fin 4, n ∈ p ∨ l.seen[n] = true → m.seen[n] = true) ∧
      ∀ n : Fin 4, n ∈ p ∨ l.tmp[n] = k n → m.tmp[n] = k n := by
  induction p generalizing l with
  | nil => exact ⟨rfl, rfl, rfl, fun n h => h.resolve_left List.not_mem_nil, fun n h => h.resolve_left List.not_mem_nil⟩
  | cons j p ih =>
    obtain ⟨hlk, hkey, harm, hseen, htmp⟩ := ih (withKeyWord k l j)
    refine ⟨hlk, hkey, harm, fun n h => hseen n ?_, fun n h => htmp n ?_⟩
    · by_cases e : n = j
      · subst e; exact .inr (Vector.getElem_set_self _)
      · rw [List.mem_cons, or_iff_right e] at h
        exact h.imp_right fun hs => (getElem_set_other _ _ e).trans hs
    · by_cases e : n = j
      · subst e; exact .inr (Vector.getElem_set_self _)
      · rw [List.mem_cons, or_iff_right e] at h
        exact h.imp_right fun hs => (getElem_set_other _ _ e).trans hs

section
variable {c : Word → Instr} {key : Fin 4 → Word → Instr} {x : Block} {a : Nat} {b : Fin 4 → Nat} {s : State}
  (hmp : s.plat.hasMp = true) (h : s.mayWrite = true)
include hmp h

/-- The key words of a sequence, each written once. -/
theorem run_keys (hk : IsKeyCmd key x b) (k : Fin 4 → Word) (p : List (Fin 4)) (hp : p.Nodup) (l : Lock)
    (harm : l.armed = true) (hseen : ∀ n ∈ p, l.seen[n] = false) :
    runCommands (p.map fun n => key n (k n)) (locked s x l) = .next (locked s x (p.foldl (withKeyWord k) l)) := by
  induction p generalizing l with
  | nil => rfl
  | cons j p ih =>
    obtain ⟨hj, hp⟩ := List.nodup_cons.1 hp
    have step : exec (key j (k j)) (locked s x l) = .next (locked s x (withKeyWord k l j)) := by
      rw [hk _ j _ (by rwa [locked_plat]) (by unfold State.mayWrite at h ⊢; rwa [locked_plat, locked_cpu]),
        writeKey_taken (by rw [locked_mp]) _ _ ⟨harm, hseen j (List.mem_cons_self ..)⟩, locked_setLock]
      rfl
    rw [List.map_cons, run_cons _ _ _ _ step, List.foldl_cons]
    refine ih hp _ harm fun n hn => ?_
    have hne : n ≠ j := fun e => hj (e ▸ hn)
    exact (getElem_set_other _ _ hne).trans (hseen n (List.mem_cons_of_mem _ hn))

/-- `KEYR` and the key words in any order arm the lock with a full key; the command that follows acts on that lock. -/
theorem run_sequence (hc : IsLockCmd c x a) (hk : IsKeyCmd key x b) (k : Fin 4 → Word) (p : List (Fin 4))
    (hp : p.Perm [0, 1, 2, 3]) (v : Word) : ∃ m : Lock,
      runCommands (c 4#32 :: p.map (fun n => key n (k n)) ++ [c v]) s =
        .next (((locked s x m).writeLockCmd x a v).setReply .none) ∧
      m.lk = (s.mp x).lock.lk ∧ m.key = (s.mp x).lock.key ∧ (m.armed = true ∧ ∀ n : Fin 4, m.seen[n] = true) ∧
      ∀ n : Fin 4, m.tmp[n] = k n := by
  have all : ∀ n : Fin 4, n ∈ p := fun n => hp.mem_iff.2 (by revert n; decide)
  have hn : p.Nodup := hp.nodup_iff.2 (by decide)
  obtain ⟨hlk, hkey, harm, hseen, htmp⟩ := foldl_withKeyWord k p (s.mp x).lock.rearm
  refine ⟨_, ?_, hlk, hkey, ⟨harm, fun n => hseen n (.inl (all n))⟩, fun n => htmp n (.inl (all n))⟩
  have start : exec (c 4#32) s = .next (locked s x (s.mp x).lock.rearm) := by
    rw [hc s _ hmp h, writeLockCmd_keyr (v := 4#32) s x a rfl]; rfl
  have keys := run_keys hmp h hk k p hn (s.mp x).lock.rearm rfl fun n _ => Vector.getElem_replicate _
  rw [List.cons_append, run_cons _ _ _ _ start, run_append _ _ _ _ keys,
    run_cons _ _ _ _ (hc _ v (by rwa [locked_plat]) (by unfold State.mayWrite at h ⊢; rwa [locked_plat, locked_cpu]))]
  rfl

/-- The sequence with `LOCK` engages an open lock with that key, and the same with `UNLOCK` disengages it. -/
theorem lock_unlock (hc : IsLockCmd c x a) (hk : IsKeyCmd key x b) (k : Fin 4 → Word) (p q : List (Fin 4))
    (hp : p.Perm [0, 1, 2, 3]) (hq : q.Perm [0, 1, 2, 3]) (hlk : (s.mp x).lock.lk = false) : ∃ l m : Lock,
      l.lk = true ∧ (∀ n : Fin 4, l.key[n] = k n) ∧ m.lk = false ∧
      runCommands (c 4#32 :: p.map (fun n => key n (k n)) ++ [c 2#32]) s = .next (locked s x l) ∧
      runCommands (c 4#32 :: q.map (fun n => key n (k n)) ++ [c 1#32]) (locked s x l) = .next (locked s x m) := by
  obtain ⟨l, hrun, hl, -, hfull, htmp⟩ := run_sequence hmp h hc hk k p hp 2#32
  obtain ⟨m, hrun', hm, hkey', hfull', htmp'⟩ := run_sequence
    (s := locked s x { l with key := l.tmp, lk := true, armed := false }) (by rwa [locked_plat])
    (by unfold State.mayWrite at h ⊢; rwa [locked_plat, locked_cpu]) hc hk k q hq 1#32
  rw [locked_mp] at hm hkey'
  refine ⟨{ l with key := l.tmp, lk := true, armed := false }, { m with lk := false, armed := false }, rfl, htmp, rfl, ?_, ?_⟩
  · rw [hrun, writeLockCmd_lock (v := 2#32) _ x a rfl, engage_full (by rw [locked_mp]) a ⟨hfull, hl.trans hlk⟩, locked_setLock]; rfl
  · have agree : ∀ n : Fin 4, m.tmp[n] = m.key[n] := fun n => by rw [htmp', hkey']; exact (htmp n).symm
    rw [hrun', writeLockCmd_unlock (v := 1#32) _ x a rfl, disengage_full (by rw [locked_mp]) a ⟨hfull', hm, fun n _ => agree n⟩,
      locked_setLock]
    cases x <;> rfl

end

/-- Settles O32: one argument for the three blocks. -/
theorem lockSequenceEngagesAndDisengages : Obligations.LockSequenceEngagesAndDisengages := by
  intro s x cmd key k p q hx hmp hpriv hlk hp hq
  have h := mayWrite_supervisor s hpriv
  have forms : ∃ a b, IsLockCmd cmd x a ∧ IsKeyCmd key x b := by
    simp only [List.mem_cons, Prod.mk.injEq, List.not_mem_nil, or_false] at hx
    rcases hx with ⟨rfl, rfl, rfl⟩ | ⟨rfl, rfl, rfl⟩ | ⟨rfl, rfl, rfl⟩
    · exact ⟨_, _, isLockCmd_l1p, isKeyCmd_l1p⟩
    · exact ⟨_, _, isLockCmd_l1d, isKeyCmd_l1d⟩
    · exact ⟨_, _, isLockCmd_l2, isKeyCmd_l2⟩
  obtain ⟨a, b, hc, hk⟩ := forms
  obtain ⟨l, m, hl, hkey, hm, hrun, hrun'⟩ := lock_unlock hmp h hc hk k p q hp hq hlk
  refine ⟨locked s x l, locked s x m, hrun, ?_, ?_, ?_, hrun', ?_, ?_⟩ <;> rw [locked_mp]
  · exact hl
  · exact hkey
  · rfl
  · exact hm
  · rfl

/-! ### Refused user writes -/

/-- Settles O33: each command is a supervisor write of a register of its block, by itself or behind the check for memory
protection. -/
theorem userWritesToMemoryControllersAreRefused : Obligations.UserWritesToMemoryControllersAreRefused := by
  intro s v hmp hpriv
  have hm : s.mayWrite = false := (mayWrite_iff s).2 ⟨hmp, hpriv⟩
  have h : ¬ s.mayWrite = true := ne_true_of_eq_false hm
  refine ⟨fun i a hi => ?_, fun i a hi => ?_, fun i a hi => ?_⟩
  all_goals
    simp only [List.mem_append, List.mem_cons, List.mem_map, List.mem_finRange, true_and, Prod.mk.injEq, List.not_mem_nil,
      or_false, or_assoc] at hi
  · rcases hi with ⟨rfl, rfl⟩ | ⟨rfl, rfl⟩ | ⟨rfl, rfl⟩ | ⟨rfl, rfl⟩ | ⟨rfl, rfl⟩ | ⟨rfl, rfl⟩ | ⟨n, rfl, rfl⟩ | ⟨n, rfl, rfl⟩
    · exact if_neg h
    all_goals exact (if_pos hmp).trans (if_neg h)
  · rcases hi with ⟨rfl, rfl⟩ | ⟨rfl, rfl⟩ | ⟨rfl, rfl⟩ | ⟨rfl, rfl⟩ | ⟨rfl, rfl⟩ | ⟨rfl, rfl⟩ | ⟨rfl, rfl⟩ | ⟨rfl, rfl⟩ | ⟨rfl, rfl⟩ |
      ⟨rfl, rfl⟩ | ⟨rfl, rfl⟩ | ⟨n, rfl, rfl⟩ | ⟨n, rfl, rfl⟩
    iterate 6 exact if_neg h
    all_goals exact (if_pos hmp).trans (if_neg h)
  · rcases hi with ⟨rfl, rfl⟩ | ⟨rfl, rfl⟩ | ⟨rfl, rfl⟩ | ⟨rfl, rfl⟩ | ⟨rfl, rfl⟩ | ⟨rfl, rfl⟩ | ⟨n, rfl, rfl⟩ | ⟨rfl, rfl⟩ |
      ⟨rfl, rfl⟩ | ⟨rfl, rfl⟩ | ⟨rfl, rfl⟩ | ⟨rfl, rfl⟩ | ⟨n, rfl, rfl⟩ | ⟨n, rfl, rfl⟩
    iterate 7 exact if_neg h
    all_goals exact (if_pos hmp).trans (if_neg h)

end Sys2Proof.Proofs.Protection

/-!
PROOFS. Events, interrupts and exceptions (spec/45_intc.md, spec/60_exceptions.md section 6): sampling, drops, what the CPU
takes, bus errors, and waking.
-/
namespace Sys2Proof.Proofs.Interrupts
open Sys2Proof Sys2Proof.Machine Sys2Proof.Proofs.Step

/-! ### Flags -/

theorem ofNat_two_pow (k : Nat) : BitVec.ofNat 16 (2 ^ k) = 1#16 <<< k := by
  apply BitVec.eq_of_toNat_eq
  simp [Nat.shiftLeft_eq]

theorem setFlag_eq (v : BitVec 16) (k : Nat) : setFlag v k = v ||| 1#16 <<< k := by
  unfold setFlag; rw [ofNat_two_pow]

theorem clearFlag_eq (v : BitVec 16) (k : Nat) : clearFlag v k = v &&& ~~~(1#16 <<< k) := by
  unfold clearFlag; rw [ofNat_two_pow]

theorem mem_cpuints (k : Nat) : k ∈ cpuints ↔ 4 ≤ k ∧ k ≤ 15 := by
  constructor
  · intro h; simp [cpuints] at h; omega
  · rintro ⟨h1, h2⟩; interval_cases k <;> decide

/-! ### Sampling -/

/-- Waking changes only whether the CPU is idle and runs, and the power-down state. -/
theorem wake_frame (s : State) : ∃ i r p, s.wake = { s with cpu := { s.cpu with idle := i, running := r }, pdc := p } := by
  unfold State.wake
  split
  · exact ⟨_, _, _, rfl⟩
  · exact ⟨_, _, _, rfl⟩

theorem receiveInterrupt_bit (s : State) (k j : Nat) (hj : j < 16) :
    (s.receiveInterrupt k).cpu.ifr.getLsbD j = (s.cpu.ifr.getLsbD j || decide (j = k)) := by
  unfold State.receiveInterrupt
  split
  · next h =>
    rw [reportDrop_cpu]
    by_cases e : j = k
    · rw [e, h, Bool.true_or]
    · rw [decide_eq_false e, Bool.or_false]
  · exact setFlag_bit _ _ _ hj

theorem receiveInterrupt_cpu (s : State) (k : Nat) :
    (s.receiveInterrupt k).cpu = { s.cpu with ifr := (s.receiveInterrupt k).cpu.ifr } := by
  unfold State.receiveInterrupt
  split
  · rw [reportDrop_cpu]
  · rfl

theorem receiveInterrupt_mem (s : State) (k : Nat) : (s.receiveInterrupt k).mem = s.mem := by
  unfold State.receiveInterrupt
  split
  · exact reportDrop_mem s k
  · rfl

/-- A received interrupt clears no event flag. -/
theorem receiveInterrupt_flag (s : State) (k : Nat) {i j : Nat} (hi : i < 4) (h : s.intc.evtFlag[i].getLsbD j = true) :
    (s.receiveInterrupt k).intc.evtFlag[i].getLsbD j = true := by
  unfold State.receiveInterrupt
  split
  · obtain ⟨c, hc, hd | hd⟩ := reportDrop_flags s k
    · simpa only [hd, hc] using h
    · simpa only [hd] using withFlag_mono c 96 i j hi (by simpa only [hc] using h)
  · exact h

/-- The interrupts of a list, received one after the other. -/
theorem receiveAll (l : List Nat) (s : State) :
    (l.foldl State.receiveInterrupt s).cpu = { s.cpu with ifr := (l.foldl State.receiveInterrupt s).cpu.ifr } ∧
    (l.foldl State.receiveInterrupt s).mem = s.mem ∧
    (∀ j, j < 16 → (l.foldl State.receiveInterrupt s).cpu.ifr.getLsbD j = (s.cpu.ifr.getLsbD j || decide (j ∈ l))) ∧
    ∀ i j : Nat, ∀ hi : i < 4, s.intc.evtFlag[i].getLsbD j = true →
      (l.foldl State.receiveInterrupt s).intc.evtFlag[i].getLsbD j = true := by
  induction l generalizing s with
  | nil => exact ⟨rfl, rfl, fun j _ => by simp, fun i j hi h => h⟩
  | cons k l ih =>
    obtain ⟨hcpu, hmem, hbit, hflag⟩ := ih (s.receiveInterrupt k)
    refine ⟨?_, hmem.trans (receiveInterrupt_mem s k), fun j hj => ?_, fun i j hi h => hflag i j hi (receiveInterrupt_flag s k hi h)⟩
    · rw [List.foldl_cons, hcpu, receiveInterrupt_cpu]
    · rw [List.foldl_cons, hbit j hj, receiveInterrupt_bit s k j hj, Bool.or_assoc]
      congr 1
      simp [List.mem_cons]

/-- What sampling does to the CPU, the memory and the event flags. -/
theorem sample_spec (s : State) :
    (∀ k, k < 16 → s.sample.cpu.ifr.getLsbD k = (s.cpu.ifr.getLsbD k || decide (k ∈ s.risingInputs))) ∧
    s.sample.cpu.efr = { s.cpu.efr with
      excep := s.cpu.efr.excep || (s.cpu.gee && s.intc.excep && !s.cpu.prevExcep) } ∧
    s.sample.cpu.prevInt = s.intc.inputs ∧ s.sample.cpu.prevExcep = s.intc.excep ∧ s.sample.mem = s.mem ∧
    ∀ i j : Nat, ∀ hi : i < 4, s.intc.evtFlag[i].getLsbD j = true → s.sample.intc.evtFlag[i].getLsbD j = true := by
  let s1 := (s.setIntc { s.intc with pulses := [] }).receiveExcep
  let s2 := s1.setCpu { s1.cpu with prevInt := s.intc.inputs }
  have hs1 : s1 = { s with
      intc := { s.intc with pulses := [] }
      cpu := { s.cpu with
        efr := { s.cpu.efr with excep := s.cpu.efr.excep || (s.cpu.gee && s.intc.excep && !s.cpu.prevExcep) }
        prevExcep := s.intc.excep } } := by
    show (s.setIntc { s.intc with pulses := [] }).receiveExcep = _
    unfold State.receiveExcep
    have e : (s.setIntc { s.intc with pulses := [] }).intc.excep = s.intc.excep := rfl
    rw [e]
    cases s.intc.excep <;> cases hp : s.cpu.prevExcep <;> cases hg : s.cpu.gee <;> simp [State.setIntc, State.setCpu, hp, hg]
  obtain ⟨hcpu, hmem, hbit, hflag⟩ := receiveAll s.risingInputs s2
  obtain ⟨i, r, p, hw⟩ := wake_frame (s.risingInputs.foldl State.receiveInterrupt s2)
  have hs : s.sample = (s.risingInputs.foldl State.receiveInterrupt s2).wake := rfl
  rw [hs, hw]
  have h2 : s2.cpu = { s1.cpu with prevInt := s.intc.inputs } := rfl
  refine ⟨fun k hk => ?_, ?_, ?_, ?_, ?_, fun i j hi h => ?_⟩
  · show (s.risingInputs.foldl State.receiveInterrupt s2).cpu.ifr.getLsbD k = _
    rw [hbit k hk, h2, hs1]
  · show (s.risingInputs.foldl State.receiveInterrupt s2).cpu.efr = _
    rw [hcpu, h2, hs1]
  · show (s.risingInputs.foldl State.receiveInterrupt s2).cpu.prevInt = _
    rw [hcpu, h2]
  · show (s.risingInputs.foldl State.receiveInterrupt s2).cpu.prevExcep = _
    rw [hcpu, h2, hs1]
  · show (s.risingInputs.foldl State.receiveInterrupt s2).mem = _
    rw [hmem]
    show s1.mem = s.mem
    rw [hs1]
  · refine hflag i j hi ?_
    show s1.intc.evtFlag[i].getLsbD j = true
    rw [hs1]; exact h

/-- An input that is sampled high where it was low before is latched. -/
theorem sample_ifr (s : State) (k : Nat) (h4 : 4 ≤ k) (h15 : k ≤ 15) :
    s.sample.cpu.ifr.getLsbD k = (s.cpu.ifr.getLsbD k || (s.intc.cpuint k && !s.cpu.prevInt.getLsbD k)) := by
  rw [(sample_spec s).1 k (by omega)]
  congr 1
  rw [Bool.eq_iff_iff, decide_eq_true_iff, mem_rising, Bool.and_eq_true, Bool.not_eq_true']
  exact and_iff_right ⟨h4, h15⟩

/-- Settles O40: the parts of what sampling does; inputs 0 to 3 never rise. -/
theorem samplingLatchesRisingInputs : Obligations.SamplingLatchesRisingInputs := by
  intro s
  obtain ⟨hbit, hefr, hint, hexc, hmem, -⟩ := sample_spec s
  refine ⟨sample_ifr s, fun k hk => ?_, hefr, fun k h4 h15 => ?_, hexc, hmem⟩
  · have : k ∉ s.risingInputs := fun h => absurd ((mem_rising s k).1 h).1.1 (by omega)
    rw [hbit k (by omega), decide_eq_false this, Bool.or_false]
  · rw [hint, inputs_bit _ k h4 h15]

/-- The platform raises events of the event combiners' words, and none of the four combined events. -/
theorem isPlatformEvent_range {e : Nat} (h : isPlatformEvent e = true) : 4 ≤ e ∧ e < 128 := by
  simp only [isPlatformEvent, Bool.or_eq_true, Bool.and_eq_true, decide_eq_true_eq] at h
  omega

theorem withFlag_bit (c : Intc) (e : Nat) (h : e / 32 < 4) : (c.withFlag e).evtFlag[e / 32].getLsbD (e % 32) = true := by
  unfold Intc.withFlag
  rw [dif_pos h]
  have : (bitAt (e % 32) true).getLsbD (e % 32) = true := by
    unfold bitAt
    rw [if_pos rfl, BitVec.getLsbD_ofNat, Nat.testBit_two_pow_self, decide_eq_true (Nat.mod_lt e (by decide))]; rfl
  show (c.evtFlag.set (e / 32) _)[e / 32].getLsbD (e % 32) = true
  rw [Vector.getElem_set_self, BitVec.getLsbD_or, this, Bool.or_true]

/-- Settles O39: the pulse of the event lies in the step, so its input rises in the sampling that ends the step. -/
theorem eventReachesTheSelectedInput : Obligations.EventReachesTheSelectedInput := by
  intro s e k rest hag hev h4 h15 hsel hprev hifr
  obtain ⟨he4, he⟩ := isPlatformEvent_range hev
  let u := ((s.setAgenda rest).begin).raise e
  have hact : act (.event e) (s.setAgenda rest).begin = .next u := if_pos hev
  have hstep : step s = .next u.sample := by
    rw [step_eq]; unfold stepWith; rw [hag]
    show onNext (act (.event e) (s.setAgenda rest).begin) State.sample = _
    rw [hact]; rfl
  have hsel' : u.intc.intsel k = e := by
    have : u.intc.intMux = s.intc.intMux := by
      show (s.intc.withFlag e).intMux = _
      unfold Intc.withFlag; split <;> rfl
    unfold Intc.intsel at hsel ⊢; rw [this]; exact hsel
  have hin : u.intc.cpuint k = true := by
    unfold Intc.cpuint
    rw [hsel', if_neg (by omega)]
    show (s.intc.pulses ++ [e]).contains e = true
    simp
  refine ⟨u.sample, hstep, ?_, ?_, by omega, ?_⟩
  · exact (keeps_sample u).agenda
  · rw [sample_ifr u k h4 h15, hin]
    show (s.cpu.ifr.getLsbD k || (true && !s.cpu.prevInt.getLsbD k)) = true
    rw [hprev]; simp
  · exact (sample_spec u).2.2.2.2.2 _ _ _ (withFlag_bit s.intc e (by omega))

/-! ### Drops, and what the CPU takes -/

/-- The fields of a recorded drop side by side. -/
theorem dropStatus_eq (e k : Nat) (he : e < 128) (hk : k ≤ 15) :
    dropStatus e k = BitVec.ofNat 32 e <<< 24 ||| BitVec.ofNat 32 k <<< 16 ||| 1#32 := by
  unfold dropStatus
  have h : ∀ k : Fin 16, (BitVec.ofNat 32 k.val <<< 16 ||| 1#32) = BitVec.ofNat 32 (k.val * 2 ^ 16 + 1) := by decide
  rw [BitVec.or_assoc, h ⟨k, by omega⟩]
  apply BitVec.eq_of_toNat_eq
  rw [BitVec.toNat_or, BitVec.toNat_shiftLeft, BitVec.toNat_ofNat, BitVec.toNat_ofNat, BitVec.toNat_ofNat, Nat.mod_eq_of_lt
    (show e < 2 ^ 32 by omega), Nat.shiftLeft_eq, Nat.mod_eq_of_lt (show e * 2 ^ 24 < 2 ^ 32 by omega),
    Nat.mod_eq_of_lt (show k * 2 ^ 16 + 1 < 2 ^ 32 by omega), Nat.mod_eq_of_lt (by omega), ← Nat.shiftLeft_eq e 24,
    ← Nat.shiftLeft_add_eq_or_of_lt (show k * 2 ^ 16 + 1 < 2 ^ 24 by omega), Nat.shiftLeft_eq]
  rw [Nat.add_assoc]

theorem intsel_lt (c : Intc) (k : Nat) : c.intsel k < 128 := Nat.mod_lt _ (by decide)

/-- Settles O41: the drop is reported by its two conditions, its status by its fields. -/
theorem onlyTheFirstDropIsRecorded : Obligations.OnlyTheFirstDropIsRecorded := by
  intro s k h4 h15
  constructor
  · unfold State.receiveInterrupt
    rw [setFlag_eq]; rfl
  · unfold State.reportDrop
    rw [dropStatus_eq _ k (intsel_lt ..) h15]
    refine if_congr ?_ rfl rfl
    rw [Bool.and_eq_true, Bool.not_eq_true', Bool.not_eq_true']; rfl

/-- Settles O42. -/
theorem interruptsNeedTheirEnables : Obligations.InterruptsNeedTheirEnables := by
  intro s
  constructor
  · intro k h4 h15
    unfold State.takeInterrupt
    rw [if_neg (by omega), clearFlag_eq, List.contains_iff_mem.2 ((mem_cpuints k).2 ⟨h4, h15⟩), Bool.true_and]
    refine if_congr ?_ rfl rfl
    rw [Bool.and_eq_true, Bool.and_eq_true, and_assoc]
  · unfold State.takeInterrupt
    rw [if_pos rfl]; rfl

/-- Settles O43: the two values of `GEE`. -/
theorem exceptionEntry : Obligations.ExceptionEntry := by
  intro s
  refine ⟨fun hg => ⟨?_, ?_, fun b => ?_⟩, fun hg => ⟨?_, fun h => ?_, fun h1 h2 h3 => ?_, fun b => ?_⟩⟩
  · unfold State.nmi; rw [hg]; rfl
  · unfold State.takeException; rw [hg]; rfl
  · unfold State.softwareException; rw [hg]; rfl
  · unfold State.nmi; rw [hg]; rfl
  · have : (s.cpu.efr.nmi || s.cpu.efr.excep || s.cpu.efr.internal) = true := by
      rwa [Bool.or_eq_true, Bool.or_eq_true, or_assoc]
    unfold State.takeException; rw [hg, this]; rfl
  · unfold State.takeException; rw [hg, h1, h2, h3]; rfl
  · unfold State.softwareException; rw [hg]; rfl

/-! ### Bus errors -/

/-- The fields of `BUSERR` side by side. -/
theorem busErr_fields (err : Nat) (xid : BitVec 4) (stat : BitVec 3) (he : err < 8) :
    BitVec.ofNat 32 (err * 2 ^ 29 + xid.toNat * 2 ^ 8 + stat.toNat) =
      BitVec.ofNat 32 err <<< 29 ||| xid.setWidth 32 <<< 8 ||| stat.setWidth 32 := by
  have : ∀ (err : Fin 8) (xid : BitVec 4) (stat : BitVec 3),
      BitVec.ofNat 32 (err.val * 2 ^ 29 + xid.toNat * 2 ^ 8 + stat.toNat) =
      BitVec.ofNat 32 err.val <<< 29 ||| xid.setWidth 32 <<< 8 ||| stat.setWidth 32 := by decide
  exact this ⟨err, he⟩ xid stat

/-- Settles O44. -/
theorem onlyTheFirstBusErrorIsRecorded : Obligations.OnlyTheFirstBusErrorIsRecorded := by
  intro s op xid stat err
  have hv : busErrValue op xid stat = BitVec.ofNat 32 err <<< 29 ||| xid.setWidth 32 <<< 8 ||| stat.setWidth 32 := by
    cases op <;> exact busErr_fields _ xid stat (by decide)
  have hfield : field s.emc.busErr 29 3 = 0 ↔ s.emc.busErr.toNat / 2 ^ 29 = 0 := by
    show s.emc.busErr.toNat / 2 ^ 29 % 2 ^ 3 = 0 ↔ _
    rw [Nat.mod_eq_of_lt (by have := s.emc.busErr.isLt; omega)]
  unfold State.busError
  rw [hv]
  exact if_congr hfield rfl rfl

/-! ### Waking -/

theorem wakes_iff (c : Cpu) : c.wakes = true ↔ c.ifr.getLsbD 1 = true ∨
    (c.gie = true ∧ ∃ k, 4 ≤ k ∧ k ≤ 15 ∧ c.ifr.getLsbD k = true ∧ c.ier.getLsbD k = true) := by
  unfold Cpu.wakes
  simp only [Bool.or_eq_true, Bool.and_eq_true, List.any_eq_true, mem_cpuints, and_assoc]

/-- Settles O46: the two cases of the wake condition. -/
theorem enabledInterruptWakesTheMegamodule : Obligations.EnabledInterruptWakesTheMegamodule := by
  intro s hidle
  constructor
  · intro h
    unfold State.wake
    rw [hidle, (wakes_iff s.cpu).2 h]
    simp [State.setPower, State.l1pDown, State.l1dDown, State.l2Down, State.setCpu, State.setPdc]
    exact ⟨rfl, rfl, rfl⟩
  · intro h1 h
    have : s.cpu.wakes = false := by
      rw [← Bool.not_eq_true, wakes_iff]
      rintro (h' | ⟨hg, k, h4, h15, hf, he⟩)
      · rw [h1] at h'; cases h'
      · rcases h with h | h
        · rw [h] at hg; cases hg
        · rcases h k h4 h15 with h | h
          · rw [h] at hf; cases hf
          · rw [h] at he; cases he
    unfold State.wake
    rw [hidle, this]; rfl

end Sys2Proof.Proofs.Interrupts

/-!
PROOFS. DMA-class accesses: what one aligned unit of a slave DMA transaction or one word of an IDMA transfer does in each
memory (spec/20_memory.md R108, R112, R113), and the IDMA channels (spec/43_idma.md).
-/
namespace Sys2Proof.Proofs.Dma
open Sys2Proof Sys2Proof.Machine

/-! ### Bytes of memory -/

theorem readBytes_length (m : Memory) (a n : Nat) : (m.readBytes a n).length = n := by
  induction n generalizing a with
  | zero => rfl
  | succ n ih => rw [Memory.readBytes, List.length_cons, ih]

theorem readBytes_getElem? (m : Memory) (a n i : Nat) (h : i < n) : (m.readBytes a n)[i]? = some (m.read (a + i)) := by
  induction n generalizing a i with
  | zero => omega
  | succ n ih =>
    cases i with
    | zero => rfl
    | succ i =>
      rw [Memory.readBytes, List.getElem?_cons_succ, ih _ _ (by omega)]
      rw [show a + 1 + i = a + (i + 1) by omega]

@[simp] theorem recordFault_mem (s : State) (x : Block) (o : Origin) (a : Nat) (p : Priv) (k : Kind) (id : Nat) :
    (s.recordFault x o a p k id).mem = s.mem := by
  obtain ⟨_, _, _, _, e⟩ := recordFault_eq s x o a p k id
  rw [e]

theorem l2WriteVictim_wf (s : State) (v : Victim) (h : s.mem.wf = true) : (s.l2WriteVictim v).mem.wf = true := by
  unfold State.l2WriteVictim State.l2Take
  split
  · exact State.putMasked_wf h _ _
  split
  · exact h
  split
  · exact h
  · exact busWrite_wf _ _ _ _ _ _ _ _ (finishOut_wf s h)

theorem drainVictim_wf (s : State) (h : s.mem.wf = true) : s.drainVictim.mem.wf = true := by
  unfold State.drainVictim
  split
  · exact h
  · exact l2WriteVictim_wf _ _ h

theorem drainVictim_plat (s : State) : s.drainVictim.plat = s.plat := (drainVictim_power s).1

/-! ### One DMA-class access -/

/-- The address lies in the RAM of L1D or L1P, whose page carries the permission `e`. -/
def L1Ram (s : State) (a : Nat) (x : Block) (e : BitVec 16) : Prop :=
  (x = Block.l1d ∧ s.region a = .l1dRam ∧ e = entryOf s.l1d.mppa (s.plat.l1d.page a)) ∨
    (x = Block.l1p ∧ s.region a = .l1pRam ∧ e = entryOf s.l1p.mppa (s.plat.l1p.page a))

theorem memWriteAs_l1 {s : State} {a : Nat} {x : Block} {e : BitVec 16} (h : L1Ram s a x e) (id : Nat) (p : Priv)
    (bs : List Byte) (cfg : Bool) (bad : Refusal) : s.memWriteAs id p a bs cfg bad =
      .ok (if s.allows e id p .write false then s.putBytes a bs else s.recordFault x .remote a p .write id) := by
  unfold State.memWriteAs
  rcases h with ⟨rfl, hr, rfl⟩ | ⟨rfl, hr, rfl⟩ <;> (rw [hr]; exact (apply_ite Except.ok _ _ _).symm)

theorem memReadAs_l1 {s : State} {a : Nat} {x : Block} {e : BitVec 16} (h : L1Ram s a x e) (id : Nat) (p : Priv)
    (n : Nat) (cfg : Bool) (bad : Refusal) : s.memReadAs id p a n cfg bad =
      .ok (if s.allows e id p .read false then (s, s.mem.readBytes a n) else s.deniedRead x .remote a n p id) := by
  unfold State.memReadAs
  rcases h with ⟨rfl, hr, rfl⟩ | ⟨rfl, hr, rfl⟩ <;> (rw [hr]; exact (apply_ite Except.ok _ _ _).symm)

theorem memWriteAs_l2 {s : State} {a : Nat} (h : s.region a = .l2Ram) (id : Nat) (p : Priv) (bs : List Byte) (cfg : Bool)
    (bad : Refusal) : s.memWriteAs id p a bs cfg bad =
      .ok (if s.allows (s.l2Perm a) id p .write false
        then ((s.drainVictim.wakePages a).putBytes a bs).snoopWrite a (s.plat.maskRom a (bs.map some))
        else (s.drainVictim.wakePages a).recordFault .l2 .remote a p .write id) := by
  unfold State.memWriteAs
  rw [h]; exact (apply_ite Except.ok _ _ _).symm

theorem memReadAs_l2 {s : State} {a : Nat} (h : s.region a = .l2Ram) (id : Nat) (p : Priv) (n : Nat) (cfg : Bool)
    (bad : Refusal) : s.memReadAs id p a n cfg bad =
      .ok (if s.allows (s.l2Perm a) id p .read false
        then (s.drainVictim.wakePages a, (s.drainVictim.wakePages a).snoopRead a n)
        else (s.drainVictim.wakePages a).deniedRead .l2 .remote a n p id) := by
  unfold State.memReadAs
  rw [h]; exact (apply_ite Except.ok _ _ _).symm

/-- Bytes put at an address: those of RAM take them, everything else stays. -/
theorem putBytes_bytes {s : State} (hw : s.mem.wf = true) (a : Nat) (bs : List Byte) :
    (∀ i, i < bs.length → s.plat.isRom (a + i) = false → some ((s.putBytes a bs).mem.read (a + i)) = bs[i]?) ∧
    ∀ b, (b < a ∨ a + bs.length ≤ b ∨ s.plat.isRom b = true) → (s.putBytes a bs).mem.read b = s.mem.read b :=
  ⟨fun i hi hr => State.putBytes_read_inside hw a i bs hi hr, fun b hb => State.putBytes_read_outside hw a b bs hb⟩

/-- A DMA-class write takes its bytes to the line that L1D holds, if it holds one, and changes nothing else of the state. -/
theorem snoopWrite_spec (s : State) (a : Nat) (bs : List (Option Byte)) :
    s.snoopWrite a bs = { s with l1d := { s.l1d with lines := (s.snoopWrite a bs).l1d.lines } } ∧
    (s.l1dLookup a = none → (s.snoopWrite a bs).l1d.lines = s.l1d.lines) ∧
    ∀ l, s.l1dLookup a = some l → (s.snoopWrite a bs).l1d.lines =
      putLine s.l1d.lines { l with data := overlay l.data (a % 64) bs } := by
  unfold State.snoopWrite
  cases h : s.l1dLookup a with
  | none => exact ⟨rfl, fun _ => rfl, fun _ hl => nomatch hl⟩
  | some l =>
    refine ⟨rfl, ?_, ?_⟩
    · intro hn; cases hn
    · intro m hm; cases hm; rfl

/-! ### Slave DMA -/

theorem unitLen_of_ne (a n : Nat) (h : n ≠ 0) :
    unitLen a n = if a % 4 = 0 ∧ 4 ≤ n then 4 else if a % 2 = 0 ∧ 2 ≤ n then 2 else 1 := by
  unfold unitLen; rw [show min n 1 = 1 by omega]

theorem sdmaStop_none {s : State} {id a n : Nat} (hid : id < 2 ^ s.plat.idWidth) (ha : a + n ≤ 0x100000000) :
    s.sdmaStop id a n = none := by
  unfold State.sdmaStop topOfMemory
  rw [if_neg (by omega), if_neg (by omega)]

theorem sdmaNext_write {s t : State} {id : Nat} {p : Priv} {a : Nat} {bs : List Byte}
    (h : s.memWriteAs id p a (bs.take (unitLen a bs.length)) false (.sdmaTarget a) = .ok t) :
    s.sdmaNext ⟨id, p, a, .write bs⟩ = .ok (t, if unitLen a bs.length < bs.length
      then some ⟨id, p, a + unitLen a bs.length, .write (bs.drop (unitLen a bs.length))⟩ else none) := by
  show (s.memWriteAs id p a (bs.take (unitLen a bs.length)) false (.sdmaTarget a)).map _ = _
  rw [h]; rfl

theorem sdmaNext_read {s : State} {r : State × List Byte} {id : Nat} {p : Priv} {a n : Nat} {got : List Byte}
    (h : s.memReadAs id p a (unitLen a n) false (.sdmaTarget a) = .ok r) :
    s.sdmaNext ⟨id, p, a, .read n got⟩ = .ok (if unitLen a n < n
      then (r.1, some ⟨id, p, a + unitLen a n, .read (n - unitLen a n) (got ++ r.2)⟩)
      else ({ r.1 with reply := .data (got ++ r.2) }, none)) := by
  show (s.memReadAs id p a (unitLen a n) false (.sdmaTarget a)).map _ = _
  rw [h]; rfl

/-- The bytes of the step, and what a write of them stores. -/
theorem putUnit_bytes {s : State} (hw : s.mem.wf = true) (a : Nat) (bs : List Byte) (k : Nat) (hk : k ≤ bs.length) :
    (∀ i, i < k → s.plat.isRom (a + i) = false → some ((s.putBytes a (bs.take k)).mem.read (a + i)) = bs[i]?) ∧
    ∀ b, (b < a ∨ a + k ≤ b ∨ s.plat.isRom b = true) → (s.putBytes a (bs.take k)).mem.read b = s.mem.read b := by
  obtain ⟨hin, hout⟩ := putBytes_bytes hw a (bs.take k)
  rw [List.length_take, Nat.min_eq_left hk] at hin hout
  exact ⟨fun i hi hr => (hin i hi hr).trans (List.getElem?_take_of_lt hi), hout⟩

/-- Settles O47: the access of the step's unit in L1 RAM and in L2 RAM, allowed and denied. -/
theorem slaveDmaMovesItsBytes : Obligations.SlaveDmaMovesItsBytes := by
  intro s id p a hw
  refine ⟨fun bs hbs hid ha => ?startWrite, fun n hn hid ha => ?startRead, fun bs hbs => ?write, fun n got hn => ?read⟩
  case startWrite =>
    unfold State.sdmaWrite
    rw [sdmaStop_none hid ha]
    exact if_neg hbs
  case startRead =>
    unfold State.sdmaRead
    rw [sdmaStop_none hid ha]
    exact if_neg hn
  case write =>
    have hlen : bs.length ≠ 0 := fun h => hbs (List.length_eq_zero_iff.1 h)
    rw [← unitLen_of_ne a bs.length hlen]
    intro k more
    have hk : k ≤ bs.length := unitLen_le a bs.length
    refine ⟨fun x e hx => ⟨fun hp => ?_, fun hp => ?_⟩, fun hr => ?_⟩
    · have hm := memWriteAs_l1 hx id p (bs.take k) false (.sdmaTarget a)
      rw [hp, if_pos rfl] at hm
      exact ⟨_, sdmaNext_write hm, rfl, putUnit_bytes hw a bs k hk⟩
    · have hm := memWriteAs_l1 hx id p (bs.take k) false (.sdmaTarget a)
      rw [hp, if_neg Bool.false_ne_true] at hm
      exact ⟨sdmaNext_write hm, recordFault_mem ..⟩
    · intro u
      have hm := memWriteAs_l2 hr id p (bs.take k) false (.sdmaTarget a)
      refine ⟨fun hp => ?_, fun hp => ?_⟩
      · rw [hp, if_pos rfl] at hm
        have huw : u.mem.wf = true := drainVictim_wf s hw
        have hplat : u.plat = s.plat := drainVictim_plat s
        obtain ⟨hframe, hnone, hsome⟩ := snoopWrite_spec (u.putBytes a (bs.take k)) a (s.plat.maskRom a ((bs.take k).map some))
        have hmem : ((u.putBytes a (bs.take k)).snoopWrite a (s.plat.maskRom a ((bs.take k).map some))).mem =
          (u.putBytes a (bs.take k)).mem := by rw [hframe]
        obtain ⟨hin, hout⟩ := putUnit_bytes huw a bs k hk
        have hmask : s.plat.maskRom a ((bs.take k).map some) =
            (bs.take k).mapIdx fun i b => if s.plat.isRom (a + i) then none else some b := by
          unfold Platform.maskRom
          apply List.ext_getElem?
          intro i
          rw [List.getElem?_mapIdx, List.getElem?_mapIdx, List.getElem?_map, Option.map_map]
          rfl
        refine ⟨_, sdmaNext_write hm, ?_, fun i hi hrom => ?_, fun b hb => ?_, hnone, fun l hl => ?_⟩
        · exact hframe.trans (by rw [hframe]; rfl)
        · rw [hmem]; exact hin i hi (hplat ▸ hrom)
        · rw [hmem]; exact hout b (hplat ▸ hb)
        · rw [← hmask]; exact hsome l hl
      · rw [hp, if_neg Bool.false_ne_true] at hm
        exact ⟨sdmaNext_write hm, recordFault_mem ..⟩
  case read =>
    rw [← unitLen_of_ne a n hn]
    intro k answer
    refine ⟨fun h => ?_, fun x u h => ?_, fun hr hp => ?_⟩
    · have hm : s.memReadAs id p a k false (.sdmaTarget a) = .ok (s, s.mem.readBytes a k) := by
        rcases h with ⟨hr, hp⟩ | ⟨hr, hp⟩
        · rw [memReadAs_l1 (.inl ⟨rfl, hr, rfl⟩), hp]; rfl
        · rw [memReadAs_l1 (.inr ⟨rfl, hr, rfl⟩), hp]; rfl
      exact sdmaNext_read hm
    · have hm : s.memReadAs id p a k false (.sdmaTarget a) = .ok (u.deniedRead x .remote a k p id) := by
        rcases h with ⟨rfl, rfl, hr, hp⟩ | ⟨rfl, rfl, hr, hp⟩ | ⟨rfl, rfl, hr, hp⟩
        · rw [memReadAs_l1 (.inl ⟨rfl, hr, rfl⟩), hp]; rfl
        · rw [memReadAs_l1 (.inr ⟨rfl, hr, rfl⟩), hp]; rfl
        · rw [memReadAs_l2 hr, hp]; rfl
      have hden : u.deniedRead x .remote a k p id = ({ u.recordFault x .remote a p .read id with free := u.free + 1 },
          (List.range k).map fun i => Config.freeByte u.free i) := by
        obtain ⟨_, _, _, _, e⟩ := recordFault_eq u x .remote a p .read id
        unfold State.deniedRead
        rw [e]; rfl
      rw [hden] at hm
      exact ⟨sdmaNext_read hm, recordFault_mem ..⟩
    · intro u
      have hm := memReadAs_l2 hr id p k false (.sdmaTarget a)
      rw [hp, if_pos rfl] at hm
      refine ⟨fun l hl hd => ?_, fun hclean => ?_⟩
      · have : u.snoopRead a k = slice l.data (a % 64) k := by unfold State.snoopRead; rw [hl]; exact if_pos hd
        rw [← this]; exact sdmaNext_read hm
      · have : u.snoopRead a k = u.mem.readBytes a k := by
          unfold State.snoopRead
          cases hl : u.l1dLookup a with
          | none => rfl
          | some l => exact if_neg (by rw [hclean l hl]; decide)
        rw [← this]; exact sdmaNext_read hm

end Sys2Proof.Proofs.Dma

/-!
PROOFS. The IDMA channels (spec/43_idma.md): the parameter and count writes, one word of a transfer, and its end.
-/
namespace Sys2Proof.Proofs.Idma
open Sys2Proof Sys2Proof.Machine Sys2Proof.Proofs.Dma

/-! ### Parameter and count writes -/

theorem run_one (i : Instr) (s : State) : runCommands [i] s = exec i s := by
  rw [runCommands]
  cases exec i s <;> rfl

/-- The parameter registers of channel 0 written in order. -/
theorem run_idma0Parameters (s : State) (m a b : Word) :
    runCommands [.idma0MaskWrite m, .idma0SourceWrite a, .idma0DestWrite b] s = .next { s with
      idma0 := { s.idma0 with mask := m, source := a &&& 0xFFFFFFE0#32, dest := b &&& 0xFFFFFFE0#32, stage := .dest }
      reply := .none } := rfl

/-- The parameter registers of channel 1 written in order. -/
theorem run_idma1Parameters (s : State) (a b : Word) :
    runCommands [.idma1SourceWrite a, .idma1DestWrite b] s = .next { s with
      idma1 := { s.idma1 with source := a, dest := b, stage := .dest }, reply := .none } := rfl

/-- Settles O35: each write is its field and the stage. -/
theorem idmaParameterWrites : Obligations.IdmaParameterWrites := by
  intro s v
  refine ⟨⟨_, rfl, rfl⟩, ⟨_, rfl, rfl⟩, ⟨_, rfl, rfl⟩, ⟨_, rfl, rfl⟩, ⟨_, rfl, rfl⟩, fun i j w h => ?_,
    run_idma0Parameters s v, run_idma1Parameters s v⟩
  simp only [List.mem_cons, Prod.mk.injEq, List.not_mem_nil, or_false] at h
  rcases h with ⟨rfl, rfl, rfl⟩ | ⟨rfl, rfl, rfl⟩ | ⟨rfl, rfl, rfl⟩ | ⟨rfl, rfl, rfl⟩ | ⟨rfl, rfl, rfl⟩ <;> exact ⟨_, rfl, rfl⟩

section
variable {s : State} {c : Fin 2} (v : Word) (t : Xfer)

/-- In order, on an idle channel: the transfer becomes active. -/
theorem writeIdmaCount_active (h : (s.chan c).stage = .dest) (ha : (s.chan c).active = none) :
    s.writeIdmaCount c v t =
      .ok (s.spend.setChan c { s.chan c with count := v, stage := .none, active := some t }) := by
  unfold State.writeIdmaCount State.triggers Chan.submit
  simp [h, ha, Except.map]

/-- In order, behind an active transfer: it becomes pending. -/
theorem writeIdmaCount_pending (h : (s.chan c).stage = .dest) (ha : (s.chan c).active ≠ none)
    (hp : (s.chan c).pending = none) : s.writeIdmaCount c v t =
      .ok (s.spend.setChan c { s.chan c with count := v, stage := .none, pending := some t }) := by
  obtain ⟨x, hx⟩ := Option.ne_none_iff_exists'.1 ha
  unfold State.writeIdmaCount State.triggers Chan.submit
  simp [h, hx, hp, Except.map]

/-- In order, behind an active and a pending transfer: refused. -/
theorem writeIdmaCount_full (h : (s.chan c).stage = .dest) (ha : (s.chan c).active ≠ none)
    (hp : (s.chan c).pending ≠ none) : s.writeIdmaCount c v t = .error (.refused (.idmaQueueFull c)) := by
  obtain ⟨x, hx⟩ := Option.ne_none_iff_exists'.1 ha
  obtain ⟨y, hy⟩ := Option.ne_none_iff_exists'.1 hp
  unfold State.writeIdmaCount State.triggers Chan.submit
  simp [h, hx, hy, Except.map]

/-- With room, in order or not, the write completes and stores the count. -/
theorem writeIdmaCount_room (h : (s.chan c).active = none ∨ (s.chan c).pending = none) :
    ∃ x : Chan, x.count = v ∧ s.writeIdmaCount c v t = .ok (s.spend.setChan c x) := by
  unfold State.writeIdmaCount
  dsimp only
  split
  · obtain ⟨y, hy⟩ : ∃ y, Chan.submit { s.chan c with count := v } c t = .ok y := by
      unfold Chan.submit
      split
      · exact ⟨_, rfl⟩
      · exact ⟨_, rfl⟩
      · next ha hp => rcases h with h | h
                      · exact absurd (h.symm.trans ha) (by simp)
                      · exact absurd (h.symm.trans hp) (by simp)
    obtain ⟨-, -, -, hcount, -⟩ := Chan.submit_ok hy
    exact ⟨y, hcount, by rw [hy]; rfl⟩
  · exact ⟨_, rfl, rfl⟩

end

theorem captured_idma0 (s : State) (v : Word) :
    s.captured s.idma0 (field v 0 4) false (bit v 28) 0#3 = idma0Parameters s v := by
  unfold State.captured idma0Parameters field
  rw [Nat.pow_zero, Nat.div_one]; rfl

theorem captured_idma1 (s : State) (v : Word) :
    s.captured s.idma1 (field v 0 16) (bit v 16) (bit v 28) (BitVec.ofNat 3 (field v 29 3)) = idma1Parameters s v := by
  have hpri : BitVec.ofNat 3 (field v 29 3) = BitVec.ofNat 3 (v.toNat / 2 ^ 29) := by
    apply BitVec.eq_of_toNat_eq
    simp [field]
  rw [hpri]
  unfold State.captured idma1Parameters field
  rw [Nat.pow_zero, Nat.div_one]; rfl

theorem exec_idma0Count (s : State) (v : Word) : exec (.idma0CountWrite v) s =
    outcome ((s.writeIdmaCount 0 (v &&& 0x1000000F#32) (idma0Parameters s v)).map fun t => t.setReply .none) := by
  rw [← captured_idma0]; rfl

theorem exec_idma1Count (s : State) (v : Word) : exec (.idma1CountWrite v) s =
    outcome ((s.writeIdmaCount 1 (v &&& 0xF001FFFF#32) (idma1Parameters s v)).map fun t => t.setReply .none) := by
  rw [← captured_idma1]; rfl

/-- A write of `IDMA0_COUNT` after the parameters in order. -/
theorem idma0Count_submits (s : State) (v : Word) (h : s.idma0.stage = .dest) :
    let c : Chan := { s.idma0 with count := v &&& 0x1000000F#32, stage := .none }
    (s.idma0.active = none → exec (.idma0CountWrite v) s =
      .next { s with idma0 := { c with active := some (idma0Parameters s v) }, free := s.free + 1, reply := .none }) ∧
    (s.idma0.active ≠ none → s.idma0.pending = none → exec (.idma0CountWrite v) s =
      .next { s with idma0 := { c with pending := some (idma0Parameters s v) }, free := s.free + 1, reply := .none }) ∧
    (s.idma0.active ≠ none → s.idma0.pending ≠ none → exec (.idma0CountWrite v) s = .refused (.idmaQueueFull 0)) := by
  refine ⟨fun ha => ?_, fun ha hp => ?_, fun ha hp => ?_⟩
  · rw [exec_idma0Count, writeIdmaCount_active (c := 0) _ _ h ha]; rfl
  · rw [exec_idma0Count, writeIdmaCount_pending (c := 0) _ _ h ha hp]; rfl
  · rw [exec_idma0Count, writeIdmaCount_full (c := 0) _ _ h ha hp]; rfl

/-- A write of `IDMA1_COUNT` after the parameters in order. -/
theorem idma1Count_submits (s : State) (v : Word) (h : s.idma1.stage = .dest) :
    let c : Chan := { s.idma1 with count := v &&& 0xF001FFFF#32, stage := .none }
    (s.idma1.active = none → exec (.idma1CountWrite v) s =
      .next { s with idma1 := { c with active := some (idma1Parameters s v) }, free := s.free + 1, reply := .none }) ∧
    (s.idma1.active ≠ none → s.idma1.pending = none → exec (.idma1CountWrite v) s =
      .next { s with idma1 := { c with pending := some (idma1Parameters s v) }, free := s.free + 1, reply := .none }) ∧
    (s.idma1.active ≠ none → s.idma1.pending ≠ none → exec (.idma1CountWrite v) s = .refused (.idmaQueueFull 1)) := by
  refine ⟨fun ha => ?_, fun ha hp => ?_, fun ha hp => ?_⟩
  · rw [exec_idma1Count, writeIdmaCount_active (c := 1) _ _ h ha]; rfl
  · rw [exec_idma1Count, writeIdmaCount_pending (c := 1) _ _ h ha hp]; rfl
  · rw [exec_idma1Count, writeIdmaCount_full (c := 1) _ _ h ha hp]; rfl

/-- Settles O36: after the parameters in order the channel stands where the count write submits. -/
theorem idmaCountWritesSubmit : Obligations.IdmaCountWritesSubmit := by
  intro s v c0 c1
  refine ⟨idma0Count_submits s v, fun _ hroom => ?_, idma1Count_submits s v, fun _ hroom => ?_, fun m a b => ?_, fun a b => ?_⟩
  · obtain ⟨x, hx, e⟩ := writeIdmaCount_room (c := 0) (v &&& 0x1000000F#32) (idma0Parameters s v) hroom
    refine ⟨(s.spend.setChan 0 x).setReply .none, ?_, hx, rfl⟩
    rw [exec_idma0Count, e]; rfl
  · obtain ⟨x, hx, e⟩ := writeIdmaCount_room (c := 1) (v &&& 0xF001FFFF#32) (idma1Parameters s v) hroom
    refine ⟨(s.spend.setChan 1 x).setReply .none, ?_, hx, rfl⟩
    rw [exec_idma1Count, e]; rfl
  · have hrun := run_append _ [.idma0CountWrite v] s _ (run_idma0Parameters s m a b)
    rw [run_one] at hrun
    obtain ⟨hact, hpend, hfull⟩ := idma0Count_submits
      { s with idma0 := { s.idma0 with mask := m, source := a &&& 0xFFFFFFE0#32, dest := b &&& 0xFFFFFFE0#32, stage := .dest }, reply := .none } v rfl
    exact ⟨fun ha => hrun.trans (hact ha), fun ha hp => hrun.trans (hpend ha hp), fun ha hp => hrun.trans (hfull ha hp)⟩
  · have hrun := run_append _ [.idma1CountWrite v] s _ (run_idma1Parameters s a b)
    rw [run_one] at hrun
    obtain ⟨hact, hpend, hfull⟩ := idma1Count_submits
      { s with idma1 := { s.idma1 with source := a, dest := b, stage := .dest }, reply := .none } v rfl
    exact ⟨fun ha => hrun.trans (hact ha), fun ha hp => hrun.trans (hpend ha hp), fun ha hp => hrun.trans (hfull ha hp)⟩

/-! ### One word of a transfer -/

theorem stepIdma_zero {s : State} {t : Xfer} (h : s.idma0.active = some t) : s.stepIdma 0 = s.stepIdma0 t := by
  unfold State.stepIdma
  rw [show (s.chan 0).active = some t from h]; rfl

theorem stepIdma_one {s : State} {t : Xfer} (h : s.idma1.active = some t) : s.stepIdma 1 = s.stepIdma1 t := by
  unfold State.stepIdma
  rw [show (s.chan 1).active = some t from h]; rfl

/-- A word in L1 RAM that the page allows, and the access that reaches it. -/
theorem l1Word_read {s : State} {a id : Nat} {p : Priv} (h : l1Word s a id p .read) (n : Nat) (cfg : Bool) (bad : Refusal) :
    s.memReadAs id p a n cfg bad = .ok (s, s.mem.readBytes a n) := by
  obtain ⟨-, ⟨hr, hp⟩ | ⟨hr, hp⟩⟩ := h
  · rw [memReadAs_l1 (.inl ⟨rfl, hr, rfl⟩), hp]; rfl
  · rw [memReadAs_l1 (.inr ⟨rfl, hr, rfl⟩), hp]; rfl

theorem l1Word_write {s : State} {a id : Nat} {p : Priv} (h : l1Word s a id p .write) (bs : List Byte) (cfg : Bool)
    (bad : Refusal) : s.memWriteAs id p a bs cfg bad = .ok (s.putBytes a bs) := by
  obtain ⟨-, ⟨hr, hp⟩ | ⟨hr, hp⟩⟩ := h
  · rw [memWriteAs_l1 (.inl ⟨rfl, hr, rfl⟩), hp]; rfl
  · rw [memWriteAs_l1 (.inr ⟨rfl, hr, rfl⟩), hp]; rfl

/-- Four bytes read at `src` and put at `dst`. -/
theorem putBytes_word {s : State} (hw : s.mem.wf = true) (src dst : Nat) :
    (∀ i : Nat, i < 4 → s.plat.isRom (dst + i) = false →
      (s.putBytes dst (s.mem.readBytes src 4)).mem.read (dst + i) = s.mem.read (src + i)) ∧
    ∀ b, (b < dst ∨ dst + 4 ≤ b ∨ s.plat.isRom b = true) →
      (s.putBytes dst (s.mem.readBytes src 4)).mem.read b = s.mem.read b := by
  obtain ⟨hin, hout⟩ := putBytes_bytes hw dst (s.mem.readBytes src 4)
  rw [readBytes_length] at hin hout
  refine ⟨fun i hi hr => ?_, hout⟩
  have := hin i hi hr
  rwa [readBytes_getElem? _ _ _ _ hi, Option.some.injEq] at this

/-- A read of configuration space that the platform does not refuse uses the port and changes nothing else. -/
theorem busRead_ok (s : State) (op : BusOp) (a n : Nat) (p : Priv) (id : Nat) (h : s.emc.replies.head? ∈ [none, some .ok]) :
    ∃ m, s.busRead op a n p id = ({ s with emc := m }, s.mem.readBytes a n) := by
  unfold State.busRead State.transact
  cases hr : s.emc.replies with
  | nil => exact ⟨_, rfl⟩
  | cons r t =>
    cases r with
    | ok => exact ⟨_, rfl⟩
    | error x e => rw [hr] at h; simp at h

section
variable {s : State} {t : Xfer}

/-- The conditions under which channel 1 moves a word, and the word it moves. -/
theorem stepIdma1_word (hact : s.idma1.active = some t) (hcount : t.count % 4 = 0) (hpos : t.pos < t.count / 4)
    (hdst : t.dst.toNat / 4 * 4 + t.count ≤ 0x100000000) (hloc : s.isLocal (t.dst.toNat / 4 * 4) = true)
    (hsrc : t.fill = false → t.src.toNat / 4 * 4 + t.count ≤ 0x100000000 ∧ s.isLocal (t.src.toNat / 4 * 4) = true) :
    s.stepIdma 1 = if t.fill
      then (s.setPos 1 t (t.pos + 1)).memWriteAs t.id t.priv (t.dst.toNat / 4 * 4 + 4 * t.pos)
        (bytesOf s.plat.endian t.src.toNat 4) false (.idmaAddress 1 (t.dst.toNat / 4 * 4))
      else (s.setPos 1 t (t.pos + 1)).moveWord 1 t (t.src.toNat / 4 * 4 + 4 * t.pos) (t.dst.toNat / 4 * 4 + 4 * t.pos)
        false := by
  rw [stepIdma_one hact]
  unfold State.stepIdma1 wordAddress topOfMemory
  rw [if_neg (by omega), if_neg (by omega)]
  cases hf : t.fill with
  | true =>
    rw [if_neg (by simp), if_neg (by rw [hloc]; simp), if_neg (by simp), if_neg (by omega)]; rfl
  | false =>
    obtain ⟨hs, hl⟩ := hsrc hf
    rw [if_neg (by rw [hl]; simp), if_neg (by rw [hloc]; simp), if_neg (by simp; omega), if_neg (by omega)]; rfl

/-- The conditions under which channel 0 moves or passes over a word. -/
theorem stepIdma0_word (hact : s.idma0.active = some t) (hne : s.inCfg t.src.toNat ≠ s.inCfg t.dst.toNat)
    (hends : s.idma0Ends t.src.toNat t.dst.toNat = true) (hsrc : t.src.toNat + 128 * (t.count + 1) ≤ 0x100000000)
    (hdst : t.dst.toNat + 128 * (t.count + 1) ≤ 0x100000000) :
    s.stepIdma 0 = if 32 * (t.count + 1) ≤ t.pos then .ok (s.completeIdma 0 t)
      else if t.mask.getLsbD (t.pos % 32) then .ok (s.setPos 0 t (t.pos + 1))
      else (s.setPos 0 t (t.pos + 1)).moveWord 0 t (t.src.toNat + 4 * t.pos) (t.dst.toNat + 4 * t.pos) true := by
  have hcfg : (s.inCfg t.src.toNat && s.inCfg t.dst.toNat) = false := by
    revert hne; cases s.inCfg t.src.toNat <;> cases s.inCfg t.dst.toNat <;> simp
  rw [stepIdma_zero hact]
  unfold State.stepIdma0 topOfMemory Xfer.words0
  dsimp only
  rw [hcfg, if_neg (by simp), if_neg (by rw [hends]; simp), if_neg (by omega), if_neg (by omega)]
  rfl

end

/-- Settles O37: the word of the step, moved by a DMA-class read and write, whose effect in L1 RAM the rules above give. -/
theorem idmaStepMovesOneWord : Obligations.IdmaStepMovesOneWord := by
  intro s t hw src dst one zero
  refine ⟨fun hact hcount hpos hdst hloc => ⟨fun hfill => ?_, fun hcopy hsrc hlocs => ?_⟩,
    fun hact hne hends hsrc hdst hpos => ⟨fun hmask => ?_, fun hmask => ?_⟩⟩
  · have hstep := stepIdma1_word hact hcount hpos hdst hloc (fun h => by rw [hfill] at h; cases h)
    rw [hfill, if_pos rfl] at hstep
    refine ⟨hstep, fun hword => ?_⟩
    obtain ⟨hin, hout⟩ := putBytes_bytes (s := one) hw (dst + 4 * t.pos) (bytesOf s.plat.endian t.src.toNat 4)
    rw [bytesOf_length] at hin hout
    exact ⟨_, hstep.trans (l1Word_write (s := one) hword _ _ _), rfl, hin, hout⟩
  · have hstep := stepIdma1_word hact hcount hpos hdst hloc (fun _ => ⟨hsrc, hlocs⟩)
    rw [hcopy, if_neg Bool.false_ne_true] at hstep
    refine ⟨hstep, fun hread hwrite => ?_⟩
    obtain ⟨hin, hout⟩ := putBytes_word (s := one) hw (src + 4 * t.pos) (dst + 4 * t.pos)
    refine ⟨_, hstep.trans ?_, rfl, hin, hout⟩
    exact (congrArg (Except.bind · _) (l1Word_read (s := one) hread 4 _ _)).trans (l1Word_write (s := one) hwrite _ _ _)
  · rw [stepIdma0_word hact hne hends hsrc hdst, if_neg (by omega), if_pos hmask]; rfl
  · have hstep := stepIdma0_word hact hne hends hsrc hdst
    rw [if_neg (by omega), hmask, if_neg Bool.false_ne_true] at hstep
    refine ⟨hstep, fun hcfg hwrite hreply _ => ?_⟩
    obtain ⟨m, hread⟩ := busRead_ok zero .cfgRead (t.src.toNat + 4 * t.pos) 4 t.priv t.id hreply
    have hmem : zero.memReadAs t.id t.priv (t.src.toNat + 4 * t.pos) 4 true (.idmaAddress 0 (t.src.toNat + 4 * t.pos)) =
        .ok ({ zero with emc := m }, s.mem.readBytes (t.src.toNat + 4 * t.pos) 4) := by
      unfold State.memReadAs
      rw [show zero.region (t.src.toNat + 4 * t.pos) = .extCfg from hcfg]
      exact congrArg Except.ok hread
    obtain ⟨hin, hout⟩ := putBytes_word (s := { zero with emc := m }) hw (t.src.toNat + 4 * t.pos) (t.dst.toNat + 4 * t.pos)
    refine ⟨_, hstep.trans ?_, rfl, hin, hout⟩
    exact (congrArg (Except.bind · _) hmem).trans (l1Word_write (s := { zero with emc := m }) hwrite _ _ _)

/-- Settles O38: completion, the parameter error, and promotion of the pending transfer. -/
theorem idmaTransfersEnd : Obligations.IdmaTransfersEnd := by
  intro s t
  refine ⟨fun hact hcount hpos => ?_, fun hact hsrc hdst => ?_, fun hact hne hends hsrc hdst hpos => ?_⟩
  · rw [stepIdma_one hact]
    unfold State.stepIdma1
    rw [if_neg (by omega), if_pos hpos]
    unfold State.completeIdma
    cases t.int <;> rfl
  · rw [stepIdma_zero hact]
    unfold State.stepIdma0
    dsimp only
    rw [hsrc, hdst]; rfl
  · rw [stepIdma0_word hact hne hends hsrc hdst, if_pos hpos]
    unfold State.completeIdma
    cases t.int <;> rfl

end Sys2Proof.Proofs.Idma

/-!
PROOFS. The state after reset, the two resets, and the invariant right after reset (spec/70_reset_and_hazards.md section 1).
-/
namespace Sys2Proof.Proofs.Reset
open Sys2Proof Sys2Proof.Machine

/-- Settles O51: each field is read off the reset state. -/
theorem resetState : Obligations.ResetState := by
  unfold Obligations.ResetState
  intro s
  exact ⟨rfl, rfl, rfl, rfl, rfl, rfl, rfl, rfl, rfl, rfl, rfl, rfl, rfl, rfl, rfl, rfl, rfl, rfl, rfl, rfl, rfl, rfl, rfl,
    rfl, rfl, rfl, rfl, rfl, rfl, rfl, rfl, rfl, rfl, rfl, rfl, rfl, rfl, rfl, rfl, rfl, rfl, rfl, rfl, rfl, rfl, rfl,
    rfl, rfl, rfl, rfl, rfl, rfl, rfl, rfl, rfl, rfl, rfl, rfl, rfl, rfl, rfl,
    fun x => ⟨by cases x <;> rfl, by cases x <;> rfl⟩, rfl, rfl, rfl, rfl, rfl, rfl, rfl, rfl, rfl, rfl, rfl, rfl,
    rfl, rfl, rfl, rfl, rfl, rfl, rfl, rfl, rfl, rfl⟩

/-- Settles O53: the reset is the composition of these updates. -/
theorem localResetOnlyEmptiesTheCaches : Obligations.LocalResetOnlyEmptiesTheCaches := by
  intro s
  unfold State.localReset State.endDrain
  rfl

/-- Settles O55: the reserved bits by evaluation, the frames because every cache is empty. -/
theorem resetHasTheInvariant : Obligations.ResetHasTheInvariant := by
  unfold Obligations.ResetHasTheInvariant
  refine { mem := ?mem, mppa := ?mppa, combined := ?combined, bwm := ?bwm, idma := ?idma, wbuf := ?wbuf, queue0 := ?queue0,
           queue1 := ?queue1, oneOp := ?oneOp, frames := ?frames }
  case mem => exact State.resetOf_mem_wf Config.ref
  case mppa => exact resetOf_mppaReserved (by decide)
  case combined => decide
  case bwm => decide
  case idma => decide
  case wbuf => exact Nat.zero_le 4
  case queue0 => rfl
  case queue1 => rfl
  case oneOp => rfl
  case frames => intro x; cases x <;> rfl

/-! ### Global reset -/

/-- A byte that the forgotten range does not hold, or that stands in ROM, keeps its value. -/
theorem forget_read_kept (s : State) (r : Span) (a : Nat) (h : r.has a = false ∨ s.plat.isRom a = true) :
    (s.forget r).mem.read a = s.mem.read a := by
  rw [forget_read]
  refine if_neg ?_
  rcases h with h | h <;> rw [h] <;> simp

theorem l1_span_has (p : L1Params) (a : Nat) : (⟨p.base, p.r0Size + p.r1Size⟩ : Span).has a = p.has a := by
  unfold Span.has L1Params.has L1Params.top
  rw [Nat.add_assoc]

/-- Settles O52: the four memories forget their RAM one after the other. -/
theorem globalResetRestoresTheRegisters : Obligations.GlobalResetRestoresTheRegisters := by
  intro s
  constructor
  · unfold State.globalReset
    rw [forget_eq, forget_eq _ ⟨s.plat.l2.p0Base, s.plat.l2.p0Size⟩, forget_eq _ ⟨s.plat.l1d.base, _⟩,
      forget_eq _ ⟨s.plat.l1p.base, _⟩]
    rfl
  · intro a h
    have kept : ∀ (r : Span), r ∈ [(⟨s.plat.l1p.base, s.plat.l1p.r0Size + s.plat.l1p.r1Size⟩ : Span),
        ⟨s.plat.l1d.base, s.plat.l1d.r0Size + s.plat.l1d.r1Size⟩, ⟨s.plat.l2.p0Base, s.plat.l2.p0Size⟩,
        ⟨s.plat.l2.p1Base, s.plat.l2.p1Size⟩] → r.has a = false ∨ s.plat.isRom a = true := by
      rcases h with ⟨h1, h2, h3, h4⟩ | h
      · simp only [List.mem_cons, List.not_mem_nil, or_false]
        rintro r (rfl | rfl | rfl | rfl)
        · exact .inl ((l1_span_has ..).trans h1)
        · exact .inl ((l1_span_has ..).trans h2)
        · exact .inl h3
        · exact .inl h4
      · exact fun _ _ => .inr h
    unfold State.globalReset
    rw [forget_read_kept, forget_read_kept, forget_read_kept, forget_read_kept]
    · rfl
    · exact kept _ (by simp)
    · rw [forget_plat]; exact kept _ (by simp)
    · rw [forget_plat, forget_plat]; exact kept _ (by simp)
    · rw [forget_plat, forget_plat, forget_plat]; exact kept _ (by simp)

end Sys2Proof.Proofs.Reset

/-!
PROOFS. One arbitration cycle (spec/44_bwm.md R393 to R396).
-/
namespace Sys2Proof.Proofs.Arbitration
open Sys2Proof Sys2Proof.Machine

theorem freeWait_legal (stamp : Nat) : freeWait stamp ∈ legalWaits := by
  unfold freeWait
  have h : ∀ i : Fin 7, (legalWaits[i.val]?).getD 0 ∈ legalWaits := by decide
  exact h ⟨_, Nat.mod_lt _ (by decide)⟩

theorem maxWait_defined {v : Word} (stamp : Nat) (h : v.toNat % 64 ∈ legalWaits) : maxWait v stamp = v.toNat % 64 := by
  have hf : field v 0 6 = v.toNat % 64 := by unfold field; rw [Nat.pow_zero, Nat.div_one]; rfl
  unfold maxWait
  rw [hf, if_pos (List.contains_iff_mem.2 h)]

theorem maxWait_legal (v : Word) (stamp : Nat) : maxWait v stamp ∈ legalWaits := by
  unfold maxWait
  split
  · next h => exact List.contains_iff_mem.1 h
  · exact freeWait_legal stamp

/-- Every wait is a defined one; a defined `MAXWAIT` is the wait itself, where the register governs the request. -/
theorem waitOf_spec (s : State) (x : Resource) (q : Request) : s.waitOf x q ∈ legalWaits ∧
    ((x = .l1p → q.class = 0) → (s.bwm.arbReg x q).toNat % 64 ∈ legalWaits →
      s.waitOf x q = (s.bwm.arbReg x q).toNat % 64) := by
  unfold State.waitOf
  split
  · next h => exact ⟨freeWait_legal _, fun hcpu => absurd (hcpu h.1) h.2⟩
  · exact ⟨maxWait_legal _ _, fun _ h => maxWait_defined _ h⟩

/-- The classes that wait and have not won. -/
def losers (qs : List Request) (w : Request) : List (Fin 4) :=
  classes.filter fun c => c ≠ w.class && qs.any fun q => q.class = c

theorem mem_losers (qs : List Request) (w : Request) (c : Fin 4) :
    c ∈ losers qs w ↔ c ≠ w.class ∧ ∃ q ∈ qs, q.class = c := by
  unfold losers
  rw [List.mem_filter, and_iff_right (show c ∈ classes by revert c; decide)]
  simp

theorem losers_nodup (qs : List Request) (w : Request) : (losers qs w).Nodup :=
  (show classes.Nodup by decide).filter _

/-- A cycle with a winner: the losers' counters rise, then the winner's is cleared. -/
theorem arbitrate_winner {s : State} {x : Resource} {qs : List Request} {w : Request} (h : s.winner x qs = some w) :
    s.arbitrate x qs = (s.setBwm (((losers qs w).foldl (fun b c => b.setCount x c (b.count x c + 1)) s.bwm).setCount x
      w.class 0)).setFree (s.free + 4) := by
  unfold State.arbitrate; rw [h]; rfl

/-- Settles O16: the table of priorities, the waits, and the counters of winner and losers. -/
theorem arbitrationCountsTheBlocked : Obligations.ArbitrationCountsTheBlocked := by
  intro s x qs hqs
  obtain ⟨w, hw, hwin, hall⟩ := (winner_spec s x qs).resolve_left fun h => hqs h.1
  have harb := arbitrate_winner hwin
  refine ⟨fun r => by cases r <;> rfl, rfl, rfl, rfl, fun _ => rfl, fun t ht => ?_, fun ht => ?_, waitOf_spec s x, fun _ => rfl,
    ?_, w, hw, hall, fun y c => ?_⟩
  · unfold State.declaredPriority; rw [ht]
  · unfold State.declaredPriority; rw [ht]; rfl
  · obtain ⟨v, hv⟩ := losers_eq (losers qs w) x s.bwm
    rw [harb, hv]
    exact ⟨_, rfl⟩
  · have hcount : (s.arbitrate x qs).bwm.count y c = if y = x ∧ c = w.class then 0
        else if y = x ∧ c ∈ losers qs w then s.bwm.count y c + 1 else s.bwm.count y c := by
      rw [harb]
      show (Bwm.setCount _ x w.class 0).count y c = _
      rw [count_set, count_losers x _ (losers_nodup qs w)]
    rw [hcount]
    by_cases hy : y = x
    · by_cases hc : c = w.class
      · simp [hy, hc]
      · simp [hy, hc, mem_losers]
    · simp [hy]

end Sys2Proof.Proofs.Arbitration

/-!
PROOFS. The line frames of a cache, and what a step of a coherence operation does to the frame it treats (spec/42_l2.md
section 5, spec/41_l1d.md section 5, spec/40_l1p.md section 4).
-/
namespace Sys2Proof.Proofs.Frames
open Sys2Proof Sys2Proof.Machine

/-! ### Frames of a list of lines -/

theorem lineAt_cons (l : Line) (ls : List Line) (a b : Nat) :
    lineAt (l :: ls) a b = if (a, b) = (l.set, l.way) then some l else lineAt ls a b := by
  unfold lineAt
  rw [List.find?_cons]
  by_cases h : (a, b) = (l.set, l.way)
  · rw [if_pos h]
    obtain ⟨rfl, rfl⟩ := Prod.mk.inj h
    simp
  · rw [if_neg h]
    have : (decide (l.set = a) && decide (l.way = b)) = false := by
      rw [Bool.and_eq_false_iff, decide_eq_false_iff_not, decide_eq_false_iff_not, ← not_and_or]
      rintro ⟨rfl, rfl⟩; exact h rfl
    rw [this]

theorem lineAt_dropLine (ls : List Line) (a b c d : Nat) :
    lineAt (dropLine ls c d) a b = if (a, b) = (c, d) then none else lineAt ls a b := by
  unfold lineAt dropLine
  rw [List.find?_filter]
  by_cases h : (a, b) = (c, d)
  · rw [if_pos h, List.find?_eq_none]
    obtain ⟨rfl, rfl⟩ := Prod.mk.inj h
    intro l _; simp; tauto
  · rw [if_neg h]
    congr 1
    funext l
    by_cases hl : l.set = a ∧ l.way = b
    · obtain ⟨rfl, rfl⟩ := hl
      have : ¬ (l.set = c ∧ l.way = d) := fun e => h (Prod.ext e.1 e.2)
      simp; tauto
    · simp; tauto

theorem lineAt_putLine (ls : List Line) (l : Line) (a b : Nat) :
    lineAt (putLine ls l) a b = if (a, b) = (l.set, l.way) then some l else lineAt ls a b := by
  unfold putLine
  rw [lineAt_cons, lineAt_dropLine]
  split <;> rfl

/-- Where frames are distinct, the line of a frame is the one that stands in it. -/
theorem lineAt_of_mem {ls : List Line} (h : framesDistinct ls = true) {l : Line} (hl : l ∈ ls) :
    lineAt ls l.set l.way = some l := by
  induction ls with
  | nil => cases hl
  | cons k ls ih =>
    have hd : (∀ m ∈ ls, (m.set, m.way) ≠ (k.set, k.way)) ∧ framesDistinct ls = true := by
      unfold framesDistinct at h ⊢
      simp only [List.map_cons, List.nodup_cons, decide_eq_true_eq, List.mem_map, not_exists, not_and] at h ⊢
      exact h
    rw [lineAt_cons]
    rcases List.mem_cons.1 hl with rfl | hl
    · rw [if_pos rfl]
    · rw [if_neg (hd.1 l hl), ih hd.2 hl]

/-- A cache with no line in any frame is empty. -/
theorem eq_nil_of_lineAt {ls : List Line} (h : ∀ a b, lineAt ls a b = none) : ls = [] :=
  List.eq_nil_iff_forall_not_mem.2 fun l hl => lineAt_none (h l.set l.way) hl ⟨rfl, rfl⟩

/-! ### What an address lies in -/

/-- The regions follow from the platform and the modes of the caches. -/
theorem region_congr {s t : State} (hp : t.plat = s.plat) (h1 : t.l1p.mode = s.l1p.mode) (h2 : t.l1d.mode = s.l1d.mode)
    (h3 : t.l2.mode = s.l2.mode) (a : Nat) : t.region a = s.region a ∧ t.inL2Ram a = s.inL2Ram a := by
  unfold State.region State.inL1PRam State.inL1DRam State.inL2Ram State.inCfg State.l1pSize State.l1dSize State.l2Size
  rw [hp, h1, h2, h3]
  exact ⟨rfl, rfl⟩

/-! ### What an operation does to a line of its own cache -/

/-- The lines of a cache after an operation on one of them. -/
def linesAfter (c : CohAction) (l : Line) (ls : List Line) : List Line :=
  match c with
  | .inv | .wbinv => dropLine ls l.set l.way
  | .wb => if l.dirty then putLine ls { l with dirty := false } else ls

theorem treatL1d_lines (s : State) (c : CohAction) (l : Line) :
    (s.treatL1d c l).l1d.lines = linesAfter c l s.l1d.lines := by
  have own : ∀ t : State, (t.l1dLineOp c l).l1d.lines = linesAfter c l t.l1d.lines := by
    intro t
    unfold State.l1dLineOp linesAfter
    cases c with
    | inv => rfl
    | wb => cases l.dirty <;> simp
    | wbinv => cases l.dirty <;> simp
  unfold State.treatL1d
  rw [own]
  split
  · rw [drainVictim_l1d]
  · rfl

theorem treatL2_lines (s : State) (c : CohAction) (l : Line) : (s.treatL2 c l).l2.lines = linesAfter c l s.l2.lines := by
  unfold State.treatL2 linesAfter
  cases c with
  | inv => rfl
  | wb => cases l.dirty <;> simp
  | wbinv => cases l.dirty <;> simp

/-- What is left in a frame of cache `x` whose line an operation treats: nothing, or the line, clean. -/
def lineLeft (c : CohAction) (x : Block) (l : Line) : Option Line :=
  if c = .wb ∧ x ≠ .l1p then some { l with dirty := false } else none

theorem lineAt_linesAfter {ls : List Line} {l : Line} (c : CohAction) {x : Block} (hx : x ≠ .l1p)
    (h : lineAt ls l.set l.way = some l) (a b : Nat) :
    lineAt (linesAfter c l ls) a b = if (a, b) = (l.set, l.way) then lineLeft c x l else lineAt ls a b := by
  unfold linesAfter lineLeft
  cases c with
  | inv => rw [lineAt_dropLine, if_neg (fun e : _ ∧ _ => CohAction.noConfusion e.1)]
  | wbinv => rw [lineAt_dropLine, if_neg (fun e : _ ∧ _ => CohAction.noConfusion e.1)]
  | wb =>
    rw [if_pos (⟨rfl, hx⟩ : CohAction.wb = CohAction.wb ∧ x ≠ .l1p)]
    dsimp only
    cases hd : l.dirty with
    | true => rw [if_pos rfl, lineAt_putLine]
    | false =>
      rw [if_neg Bool.false_ne_true]
      split
      · next e =>
        obtain ⟨rfl, rfl⟩ := Prod.mk.inj e
        rw [h, ← hd]
      · rfl

/-- What is left in a frame that an operation treats if it reaches the line in it. -/
def frameLeft (s : State) (o : CohOp) (x : Block) : Option Line → Option Line
  | none => none
  | some l => if s.inRange o x l then lineLeft (cohAction o.reg) x l else some l

theorem frameLeft_some (s : State) (o : CohOp) (x : Block) (l : Line) : frameLeft s o x (some l) =
    if s.inRange o x l then lineLeft (cohAction o.reg) x l else some l := rfl

theorem treat_of_none {s : State} {o : CohOp} {f : Frame} (h : lineAt (s.linesOf f.cache) f.set f.way = none) :
    s.treat o f = s := by unfold State.treat; rw [h]

theorem treat_of_not_inRange {s : State} {o : CohOp} {f : Frame} {l : Line}
    (h : lineAt (s.linesOf f.cache) f.set f.way = some l) (hr : s.inRange o f.cache l = false) : s.treat o f = s := by
  unfold State.treat; rw [h]
  exact if_neg (by rw [hr]; decide)

theorem treat_of_inRange {s : State} {o : CohOp} {f : Frame} {l : Line}
    (h : lineAt (s.linesOf f.cache) f.set f.way = some l) (hr : s.inRange o f.cache l = true) :
    s.treat o f = match f.cache with
      | .l1p => s.treatL1p f
      | .l1d => s.treatL1d (cohAction o.reg) l
      | .l2 => s.treatL2 (cohAction o.reg) l := by
  unfold State.treat; rw [h]
  exact if_pos hr

/-- The treatment of a frame changes that frame of its cache as the operation says, and no other. -/
theorem treat_lineAt (s : State) (o : CohOp) (f : Frame) (a b : Nat) : lineAt ((s.treat o f).linesOf f.cache) a b =
    if (a, b) = (f.set, f.way) then frameLeft s o f.cache (lineAt (s.linesOf f.cache) a b)
    else lineAt (s.linesOf f.cache) a b := by
  cases h : lineAt (s.linesOf f.cache) f.set f.way with
  | none =>
    rw [treat_of_none h]
    split
    · next e => obtain ⟨rfl, rfl⟩ := Prod.mk.inj e; rw [h]; rfl
    · rfl
  | some l =>
    obtain ⟨-, hset, hway⟩ := lineAt_some h
    cases hr : s.inRange o f.cache l with
    | false =>
      rw [treat_of_not_inRange h hr]
      split
      · next e =>
        obtain ⟨rfl, rfl⟩ := Prod.mk.inj e
        rw [h, frameLeft_some, hr]; rfl
      · rfl
    | true =>
      have hleft : frameLeft s o f.cache (some l) = lineLeft (cohAction o.reg) f.cache l := by
        rw [frameLeft_some, hr]; rfl
      have hlines : lineAt ((s.treat o f).linesOf f.cache) a b =
          if (a, b) = (f.set, f.way) then lineLeft (cohAction o.reg) f.cache l else lineAt (s.linesOf f.cache) a b := by
        rw [treat_of_inRange h hr]
        obtain ⟨x, set, way⟩ := f
        subst hset hway
        cases x with
        | l1p =>
          have : lineLeft (cohAction o.reg) .l1p l = none := if_neg fun e => e.2 rfl
          rw [this]
          exact lineAt_dropLine ..
        | l1d =>
          show lineAt (s.treatL1d (cohAction o.reg) l).l1d.lines a b = _
          rw [treatL1d_lines]
          exact lineAt_linesAfter _ Block.noConfusion h a b
        | l2 =>
          show lineAt (s.treatL2 (cohAction o.reg) l).l2.lines a b = _
          rw [treatL2_lines]
          exact lineAt_linesAfter _ Block.noConfusion h a b
      rw [hlines]
      split
      · next e => obtain ⟨rfl, rfl⟩ := Prod.mk.inj e; rw [h, hleft]
      · rfl

/-! ### What an operation acts on and reaches -/

theorem cohTouches_iff (r : CohReg) (x : Block) : cohTouches r x = true ↔ x ∈ actsOn r := by
  cases r <;> cases x <;> decide

theorem inRange_iff (s : State) (o : CohOp) (x : Block) (l : Line) :
    s.inRange o x l = true ↔ reaches s o.reg o.base o.words x l := by
  unfold State.inRange reaches overlaps
  rw [Bool.or_eq_true, Bool.not_eq_true', Bool.and_eq_true, decide_eq_true_eq, decide_eq_true_eq]

theorem setOp_inRange (s : State) (x : Block) (p : Option CohOp) (o : CohOp) (y : Block) (l : Line) :
    (s.setOp x p).inRange o y l = s.inRange o y l := by cases x <;> cases y <;> rfl

end Sys2Proof.Proofs.Frames

/-!
PROOFS. The start of a coherence operation, its steps and its completion (spec/42_l2.md section 5).
-/
namespace Sys2Proof.Proofs.CoherenceSteps
open Sys2Proof Sys2Proof.Machine Sys2Proof.Proofs.Frames

/-! ### The state after the victim and an evicted line have gone -/

theorem drained_l1p (s : State) : s.drainVictim.finishOut.l1p = s.l1p :=
  (l2m_finishOut _).l1p.trans (l2m_drainVictim s).l1p

theorem drained_l1d (s : State) : s.drainVictim.finishOut.l1d = { s.l1d with victim := none } := by
  rw [finishOut_l1d, drainVictim_l1d]

theorem drained_out (s : State) : s.drainVictim.finishOut.l2.out = none := by rw [finishOut_l2]

/-! ### The start -/

/-- The operation that a start leaves in its slot. -/
def startedOp (s : State) (r : CohReg) (base words : Nat) : CohOp :=
  let u := s.drainVictim.finishOut
  let o : CohOp := { reg := r, base := base, words := words, priv := s.cpu.priv, todo := [], loose := []
                     l2Listed := !cohTouches r .l2 }
  { o with todo := u.framesOf o .l1p ++ u.framesOf o .l1d }

theorem startOp_eq (s : State) (r : CohReg) (base words : Nat) : s.startOp r base words =
    s.drainVictim.finishOut.setOp (cohBlock r) (some (startedOp s r base words)) := rfl

theorem startOp_linesOf (s : State) (r : CohReg) (base words : Nat) (x : Block) :
    (s.startOp r base words).linesOf x = s.drainVictim.finishOut.linesOf x := by rw [startOp_eq, setOp_linesOf]

theorem startOp_opOf_self (s : State) (r : CohReg) (base words : Nat) :
    (s.startOp r base words).opOf (cohBlock r) = some (startedOp s r base words) := by
  rw [startOp_eq, setOp_opOf, if_pos rfl]

theorem startedOp_listed (s : State) (r : CohReg) (base words : Nat) :
    (startedOp s r base words).l2Listed = !cohTouches r .l2 := rfl

/-- The frames that a started operation lists: those of L1P and L1D whose lines it reaches. -/
theorem mem_startedOp_todo (s : State) (r : CohReg) (base words : Nat) (f : Frame) :
    f ∈ (startedOp s r base words).todo ↔ f.cache ∈ actsOn r ∧ f.cache ≠ .l2 ∧
      ∃ l ∈ s.drainVictim.finishOut.linesOf f.cache, l.set = f.set ∧ l.way = f.way ∧
        reaches s.drainVictim.finishOut r base words f.cache l := by
  show f ∈ State.framesOf _ _ _ ++ State.framesOf _ _ _ ↔ _
  simp only [List.mem_append, mem_framesOf, inRange_iff, cohTouches_iff]
  obtain ⟨x, a, b⟩ := f
  cases x <;> simp

/-! ### Steps -/

section
variable {s : State} {x : Block} {o : CohOp} (h : s.opOf x = some o)
include h

theorem cohStep_listed {i : Nat} {f : Frame} (hf : o.todo[i]? = some f) :
    s.cohStep x i = (s.setOp x (some { o with todo := o.todo.eraseIdx i })).treat o f := by
  unfold State.cohStep; rw [h]; dsimp only; rw [hf]

theorem cohStep_past {i : Nat} (hi : o.todo.length ≤ i) : s.cohStep x i =
    if o.l2Listed then (if o.todo.isEmpty then (s.settle o).setOp x none else s)
    else if o.todo.all fun g => g.cache ≠ .l1d then s.listL2 x o else s := by
  unfold State.cohStep; rw [h]; dsimp only; rw [List.getElem?_eq_none hi]

end

/-- What a step at a listed frame leaves in the frames of its cache, and the operation in its slot. -/
theorem cohStep_frame {s : State} {x : Block} {o : CohOp} {i : Nat} {f : Frame} (h : s.opOf x = some o)
    (hf : o.todo[i]? = some f) : (s.cohStep x i).opOf x = some { o with todo := o.todo.eraseIdx i } ∧
    ∀ a b, lineAt ((s.cohStep x i).linesOf f.cache) a b =
      if (a, b) = (f.set, f.way) then frameLeft s o f.cache (lineAt (s.linesOf f.cache) a b)
      else lineAt (s.linesOf f.cache) a b := by
  rw [cohStep_listed h hf]
  refine ⟨by rw [treat_opOf, setOp_opOf, if_pos rfl], fun a b => ?_⟩
  rw [treat_lineAt, setOp_linesOf]
  have : frameLeft (s.setOp x (some { o with todo := o.todo.eraseIdx i })) o f.cache = frameLeft s o f.cache := by
    funext l
    cases l with
    | none => rfl
    | some l => rw [frameLeft_some, frameLeft_some, setOp_inRange]
  rw [this]

/-- Settles O24: the start by what it lists, a step at a listed frame by the treatment of that frame, a step past the end of
the list by its three cases. -/
theorem startedOperationListsItsLines : Obligations.StartedOperationListsItsLines := by
  intro s r base words u t
  refine ⟨⟨_, startOp_opOf_self s r base words, rfl, rfl, rfl, rfl, ?_, mem_startedOp_todo s r base words⟩, setOp_mem ..,
    startOp_linesOf s r base words, drained_l1p s, drained_l1d s, fun o => ⟨settle_of_none o, fun hc => ?_⟩,
    fun x o i f hop hf => ?_, fun o i hop hi => ?_⟩
  · rw [startedOp_listed, Bool.not_eq_true', ← Bool.not_eq_true, cohTouches_iff]
  · rw [settle_l1d, hc]; rfl
  · intro w t now
    obtain ⟨hslot, hframes⟩ := cohStep_frame hop hf
    have hw : lineAt (w.linesOf f.cache) f.set f.way = now := by
      show lineAt ((s.setOp _ _).linesOf _) _ _ = _
      rw [setOp_linesOf]
    refine ⟨hslot, fun l hnow hr => ⟨?_, ?_⟩, fun hout => ?_, fun a b hab => ?_⟩
    · show s.cohStep x i = _
      rw [cohStep_listed hop hf, treat_of_inRange (hw.trans hnow) (by rw [setOp_inRange, inRange_iff]; exact hr)]
      cases f.cache <;> rfl
    · rw [hframes, if_pos rfl, show lineAt (s.linesOf f.cache) f.set f.way = some l from hnow, frameLeft_some,
        (inRange_iff ..).2 hr]
      rfl
    · show s.cohStep x i = _
      rw [cohStep_listed hop hf]
      cases hn : now with
      | none => exact treat_of_none (hw.trans hn)
      | some l =>
        refine treat_of_not_inRange (hw.trans hn) ?_
        rw [setOp_inRange, ← Bool.not_eq_true, inRange_iff]
        exact hout l hn
    · rw [hframes, if_neg hab]
  · have hpast := cohStep_past (x := .l2) hop hi
    refine ⟨fun hl hex => ?_, fun hl hno => ?_, fun hl hnil => ?_⟩
    · obtain ⟨f, hf, hc⟩ := hex
      have : (o.todo.all fun g => g.cache ≠ .l1d) = false := by
        rw [List.all_eq_false]
        exact ⟨f, hf, by rw [hc]; decide⟩
      rw [hpast, hl, this]; rfl
    · have : (o.todo.all fun g => g.cache ≠ .l1d) = true := by
        rw [List.all_eq_true]
        exact fun f hf => decide_eq_true (hno f hf)
      refine ⟨(s.settle o).framesOf o .l2, ?_, fun f => ?_⟩
      · rw [hpast, hl, this]; rfl
      · rw [mem_framesOf, cohTouches_iff]
        simp only [inRange_iff]
        constructor
        · rintro ⟨hc, ha, hex⟩; exact ⟨hc, ha, hex⟩
        · rintro ⟨hc, ha, hex⟩; exact ⟨hc, ha, hex⟩
    · rw [hpast, hl, hnil]; rfl

end Sys2Proof.Proofs.CoherenceSteps

/-!
PROOFS. What a coherence operation leaves when it has run to its end (spec/42_l2.md R302, R308 to R314).
-/
namespace Sys2Proof.Proofs.FinishedOperations
open Sys2Proof Sys2Proof.Machine Sys2Proof.Proofs.Frames Sys2Proof.Proofs.CoherenceSteps

/-! ### Nothing on its way -/

/-- No victim and no evicted line is on its way. -/
def Arrived (s : State) : Prop := s.l1d.victim = none ∧ s.l2.out = none

theorem arrived_drained (s : State) : Arrived s.drainVictim.finishOut :=
  ⟨by rw [drained_l1d], drained_out s⟩

theorem arrived_setOp {s : State} (h : Arrived s) (x : Block) (o : Option CohOp) : Arrived (s.setOp x o) := by
  cases x <;> exact h

theorem settle_arrived {s : State} (h : Arrived s) (o : CohOp) : s.settle o = s := settle_of_none o h.1 h.2

/-! ### A line that L1D writes back, and the lines of L2 -/

/-- What a written back line changes of L2: at most the line that holds its address. -/
theorem l2WriteVictim_l2 (s : State) (v : Victim) : ((s.l2WriteVictim v).l2.out = s.l2.out ∨ (s.l2WriteVictim v).l2.out = none) ∧
    ((s.l2WriteVictim v).l2.lines = s.l2.lines ∨ ∃ m, s.l2Lookup v.addr = some m ∧
      (s.l2WriteVictim v).l2.lines = putLine s.l2.lines { m with data := overlay m.data (v.addr % 128) v.bytes, dirty := true }) := by
  unfold State.l2WriteVictim State.l2Take
  split
  · exact ⟨.inl rfl, .inl rfl⟩
  split
  · exact ⟨.inl rfl, .inl rfl⟩
  split
  · next m hm => exact ⟨.inl rfl, .inr ⟨m, hm, rfl⟩⟩
  · rw [extWriteLine_l2, finishOut_l2]
    exact ⟨.inr rfl, .inl rfl⟩

theorem l1dLineOp_l2 (s : State) (c : CohAction) (l : Line) :
    ((s.l1dLineOp c l).l2.out = s.l2.out ∨ (s.l1dLineOp c l).l2.out = none) ∧
    ((s.l1dLineOp c l).l2.lines = s.l2.lines ∨ (c ≠ .inv ∧ l.dirty = true ∧ ∃ m d,
      s.l2Lookup (l.addr .l1d s.l1dSets) = some m ∧
      (s.l1dLineOp c l).l2.lines = putLine s.l2.lines { m with data := d, dirty := true })) := by
  have sent : ∀ t : State, t.l2 = s.l2 → t.plat = s.plat → c ≠ .inv → l.dirty = true →
      ((t.l2WriteVictim (l.out .l1d s.l1dSets)).l2.out = s.l2.out ∨ (t.l2WriteVictim (l.out .l1d s.l1dSets)).l2.out = none) ∧
      ((t.l2WriteVictim (l.out .l1d s.l1dSets)).l2.lines = s.l2.lines ∨ (c ≠ .inv ∧ l.dirty = true ∧ ∃ m d,
        s.l2Lookup (l.addr .l1d s.l1dSets) = some m ∧
        (t.l2WriteVictim (l.out .l1d s.l1dSets)).l2.lines = putLine s.l2.lines { m with data := d, dirty := true })) := by
    intro t h hp hc hd
    obtain ⟨hout, hlines⟩ := l2WriteVictim_l2 t (l.out .l1d s.l1dSets)
    have hlook : t.l2Lookup = s.l2Lookup := by
      funext a; unfold State.l2Lookup State.l2Sets State.l2Size; rw [h, hp]
    rw [h] at hout hlines
    refine ⟨hout, hlines.imp_right fun ⟨m, hm, e⟩ => ⟨hc, hd, m, _, ?_, e⟩⟩
    rw [← hlook]; exact hm
  unfold State.l1dLineOp
  cases c with
  | inv => exact ⟨.inl rfl, .inl rfl⟩
  | wb =>
    cases hd : l.dirty with
    | true => rw [hd] at sent; exact sent _ rfl rfl (by decide) rfl
    | false => exact ⟨.inl rfl, .inl rfl⟩
  | wbinv =>
    cases hd : l.dirty with
    | true => rw [hd] at sent; exact sent _ rfl rfl (by decide) rfl
    | false => exact ⟨.inl rfl, .inl rfl⟩

theorem treatL1d_of_noVictim {s : State} (h : s.l1d.victim = none) (c : CohAction) (l : Line) :
    s.treatL1d c l = s.l1dLineOp c l := by
  unfold State.treatL1d
  rw [drainVictim_of_none h, ite_self]

/-! ### A treatment of a frame -/

theorem l1dLineOp_l2_frame (s : State) (c : CohAction) (l : Line) :
    (s.l1dLineOp c l).plat = s.plat ∧ (s.l1dLineOp c l).l2.mode = s.l2.mode := by
  have sent : ∀ t : State, t.plat = s.plat → t.l2 = s.l2 →
      (t.l2WriteVictim (l.out .l1d s.l1dSets)).plat = s.plat ∧ (t.l2WriteVictim (l.out .l1d s.l1dSets)).l2.mode = s.l2.mode := by
    intro t hp h
    have m := l2m_l2WriteVictim t (l.out .l1d s.l1dSets)
    obtain ⟨_, _, _, _, e⟩ := m.l2
    exact ⟨m.plat.trans hp, by rw [e, h]⟩
  unfold State.l1dLineOp
  cases c with
  | inv => exact ⟨rfl, rfl⟩
  | wb => cases l.dirty with
    | true => exact sent _ rfl rfl
    | false => exact ⟨rfl, rfl⟩
  | wbinv => cases l.dirty with
    | true => exact sent _ rfl rfl
    | false => exact ⟨rfl, rfl⟩

/-- What keeps the number of sets of each cache. -/
theorem setsIn_congr {s t : State} (hp : t.plat = s.plat) (h1 : t.l1p.mode = s.l1p.mode) (h2 : t.l1d.mode = s.l1d.mode)
    (h3 : t.l2.mode = s.l2.mode) (x : Block) : t.setsIn x = s.setsIn x := by
  cases x <;> simp only [State.setsIn, State.l1pSets, State.l1dSets, State.l2Sets, State.l1pSize, State.l1dSize, State.l2Size, hp, h1, h2, h3]

/-- A treatment with nothing on its way: nothing is on its way after it, the caches keep their sets, and only the frame's own
cache changes its lines, but L2 under a line written back from L1D. -/
theorem treat_spec {s : State} (h : Arrived s) (o : CohOp) (f : Frame) : Arrived (s.treat o f) ∧
    (∀ x, (s.treat o f).setsIn x = s.setsIn x) ∧
    (∀ x, x ≠ f.cache → (x = .l2 → f.cache ≠ .l1d) → (s.treat o f).linesOf x = s.linesOf x) := by
  cases hl : lineAt (s.linesOf f.cache) f.set f.way with
  | none => rw [treat_of_none hl]; exact ⟨h, fun _ => rfl, fun _ _ _ => rfl⟩
  | some l =>
    cases hr : s.inRange o f.cache l with
    | false => rw [treat_of_not_inRange hl hr]; exact ⟨h, fun _ => rfl, fun _ _ _ => rfl⟩
    | true =>
      rw [treat_of_inRange hl hr]
      obtain ⟨y, a, b⟩ := f
      cases y with
      | l1p =>
        refine ⟨h, fun x => by cases x <;> rfl, fun x hx _ => ?_⟩
        cases x with
        | l1p => exact absurd rfl hx
        | l1d => rfl
        | l2 => rfl
      | l1d =>
        show Arrived (s.treatL1d _ l) ∧ (∀ x, (s.treatL1d _ l).setsIn x = _) ∧ ∀ x, _ → _ → (s.treatL1d _ l).linesOf x = _
        rw [treatL1d_of_noVictim h.1]
        obtain ⟨ls, hls⟩ := l1dLineOp_l1d s (cohAction o.reg) l
        obtain ⟨hout, -⟩ := l1dLineOp_l2 s (cohAction o.reg) l
        obtain ⟨hplat, hmode⟩ := l1dLineOp_l2_frame s (cohAction o.reg) l
        have hl1p := (l1dLineOp_power s (cohAction o.reg) l).2.2
        refine ⟨⟨by rw [hls]; exact h.1, ?_⟩, setsIn_congr hplat (by rw [hl1p]) (by rw [hls]) hmode, fun x hx hno => ?_⟩
        · rcases hout with e | e
          · rw [e]; exact h.2
          · exact e
        · cases x with
          | l1p => exact congrArg L1p.lines hl1p
          | l1d => exact absurd rfl hx
          | l2 => exact absurd rfl (hno rfl)
      | l2 =>
        show Arrived (s.treatL2 _ l) ∧ (∀ x, (s.treatL2 _ l).setsIn x = _) ∧ ∀ x, _ → _ → (s.treatL2 _ l).linesOf x = _
        obtain ⟨hplat, hl1p, hl1d, -, -, hmode, -⟩ := treatL2_frame s (cohAction o.reg) l
        have hout : (s.treatL2 (cohAction o.reg) l).l2.out = none := by
          unfold State.treatL2
          cases cohAction o.reg with
          | inv => exact h.2
          | wb => cases l.dirty with
            | true => show (State.extWriteLine _ _).l2.out = none
                      rw [extWriteLine_l2, finishOut_l2]
            | false => exact h.2
          | wbinv => cases l.dirty with
            | true => show (State.extWriteLine _ _).l2.out = none
                      rw [extWriteLine_l2, finishOut_l2]
            | false => exact h.2
        refine ⟨⟨by rw [hl1d]; exact h.1, hout⟩, setsIn_congr hplat.symm (by rw [hl1p]) (by rw [hl1d]) hmode, fun x hx _ => ?_⟩
        cases x with
        | l1p => exact congrArg L1p.lines hl1p
        | l1d => exact congrArg L1d.lines hl1d
        | l2 => exact absurd rfl hx

theorem inRange_congr {s t : State} (h : ∀ x, t.setsIn x = s.setsIn x) (o : CohOp) (x : Block) (l : Line) :
    t.inRange o x l = s.inRange o x l := by unfold State.inRange; rw [h]

theorem frameLeft_congr {s t : State} (h : ∀ x, t.setsIn x = s.setsIn x) (o : CohOp) (x : Block) (l : Option Line) :
    frameLeft t o x l = frameLeft s o x l := by
  cases l with
  | none => rfl
  | some l => rw [frameLeft_some, frameLeft_some, inRange_congr h]

/-- Treating a frame twice does no more than treating it once. -/
theorem frameLeft_idem (s : State) (o : CohOp) (x : Block) (l : Option Line) :
    frameLeft s o x (frameLeft s o x l) = frameLeft s o x l := by
  cases l with
  | none => rfl
  | some l =>
    rw [frameLeft_some]
    cases hr : s.inRange o x l with
    | false => rw [if_neg Bool.false_ne_true, frameLeft_some, hr]; rfl
    | true =>
      rw [if_pos rfl]
      unfold lineLeft
      split
      · next h =>
        rw [frameLeft_some, show s.inRange o x { l with dirty := false } = true from hr, if_pos rfl]
        exact if_pos h
      · rfl

/-! ### Frames treated in turn -/

/-- Frames whose treatment touches a cache `x` only at frames of `x`. -/
def SparesOthers (fs : List Frame) (x : Block) : Prop := ∀ f ∈ fs, f.cache = x ∨ (x = .l2 → f.cache ≠ .l1d)

theorem treatAll_cons (s : State) (o : CohOp) (f : Frame) (fs : List Frame) :
    s.treatAll o (f :: fs) = (s.treat o f).treatAll o fs := rfl

theorem treatAll_arrived {s : State} (h : Arrived s) (o : CohOp) (fs : List Frame) :
    Arrived (s.treatAll o fs) ∧ ∀ x, (s.treatAll o fs).setsIn x = s.setsIn x := by
  induction fs generalizing s with
  | nil => exact ⟨h, fun _ => rfl⟩
  | cons f fs ih =>
    obtain ⟨harr, hsets, -⟩ := treat_spec h o f
    obtain ⟨harr', hsets'⟩ := ih harr
    exact ⟨harr', fun x => (hsets' x).trans (hsets x)⟩

theorem treatAll_linesOf {s : State} (h : Arrived s) (o : CohOp) (fs : List Frame) (x : Block) (hx : ∀ f ∈ fs, f.cache ≠ x)
    (hsp : SparesOthers fs x) : (s.treatAll o fs).linesOf x = s.linesOf x := by
  induction fs generalizing s with
  | nil => rfl
  | cons f fs ih =>
    obtain ⟨harr, -, hlines⟩ := treat_spec h o f
    have hf := hx f (List.mem_cons_self ..)
    rw [treatAll_cons, ih harr (fun g hg => hx g (List.mem_cons_of_mem _ hg)) fun g hg => hsp g (List.mem_cons_of_mem _ hg)]
    exact hlines x (fun e => hf e.symm) ((hsp f (List.mem_cons_self ..)).resolve_left hf)

/-- The frames of a cache after frames were treated in turn: those of the list are treated, the others stay. -/
theorem treatAll_lineAt {s : State} (h : Arrived s) (o : CohOp) (fs : List Frame) (x : Block) (hsp : SparesOthers fs x)
    (a b : Nat) : lineAt ((s.treatAll o fs).linesOf x) a b =
      if (⟨x, a, b⟩ : Frame) ∈ fs then frameLeft s o x (lineAt (s.linesOf x) a b) else lineAt (s.linesOf x) a b := by
  induction fs generalizing s with
  | nil => rfl
  | cons f fs ih =>
    obtain ⟨harr, hsets, hlines⟩ := treat_spec h o f
    rw [treatAll_cons, ih harr fun g hg => hsp g (List.mem_cons_of_mem _ hg), frameLeft_congr hsets]
    by_cases hf : f.cache = x
    · subst hf
      rw [treat_lineAt]
      by_cases e : (a, b) = (f.set, f.way)
      · obtain ⟨rfl, rfl⟩ := Prod.mk.inj e
        rw [if_pos rfl, frameLeft_idem, ite_self, if_pos (List.mem_cons_self ..)]
      · have : (⟨f.cache, a, b⟩ : Frame) ∈ f :: fs ↔ (⟨f.cache, a, b⟩ : Frame) ∈ fs := by
          rw [List.mem_cons, or_iff_right]
          intro e'; apply e; rw [← e']
        rw [if_neg e, if_congr this rfl rfl]
    · have : (⟨x, a, b⟩ : Frame) ∈ f :: fs ↔ (⟨x, a, b⟩ : Frame) ∈ fs := by
        rw [List.mem_cons, or_iff_right]
        intro e'; apply hf; rw [← e']
      rw [hlines x (fun e => hf e.symm) ((hsp f (List.mem_cons_self ..)).resolve_left hf), if_congr this rfl rfl]

/-- Where the list has every frame whose line the operation reaches, every frame is treated. -/
theorem treatAll_lineAt_reached {s : State} (h : Arrived s) (o : CohOp) (fs : List Frame) (x : Block) (hsp : SparesOthers fs x)
    (hall : ∀ l ∈ s.linesOf x, s.inRange o x l = true → (⟨x, l.set, l.way⟩ : Frame) ∈ fs) (a b : Nat) :
    lineAt ((s.treatAll o fs).linesOf x) a b = frameLeft s o x (lineAt (s.linesOf x) a b) := by
  rw [treatAll_lineAt h o fs x hsp]
  split
  · rfl
  · next hno =>
    cases hl : lineAt (s.linesOf x) a b with
    | none => rfl
    | some l =>
      obtain ⟨hmem, rfl, rfl⟩ := lineAt_some hl
      cases hr : s.inRange o x l with
      | true => exact absurd (hall l hmem hr) hno
      | false => rw [frameLeft_some, hr]; rfl

/-! ### Lines of L2 under lines written back from L1D -/

/-- The address of an L2 line that holds an address. -/
theorem addr_of_l2Lookup {s : State} {a : Nat} {m : Line} (h : s.l2Lookup a = some m) : m.addr .l2 s.l2Sets = a / 128 * 128 := by
  unfold State.l2Lookup at h
  split at h
  · cases h
  · have hm : m.set = setOf .l2 s.l2Sets a ∧ m.tag = tagOf .l2 s.l2Sets a := by
      unfold findLine at h
      have := List.find?_some h
      simpa using this
    unfold Line.addr
    rw [hm.1, hm.2]
    show (a / 128 / s.l2Sets * s.l2Sets + a / 128 % s.l2Sets) * 128 = a / 128 * 128
    rw [Nat.div_add_mod']

/-- An L1D line of `ks` that an operation writes back does not lie in this L2 line. -/
def Untouched (s : State) (o : CohOp) (ks : List Line) (l : Line) : Prop :=
  ∀ k ∈ ks, k.dirty = true → s.inRange o .l1d k = true → k.addr .l1d s.l1dSets / 128 * 128 ≠ l.addr .l2 s.l2Sets

/-- The frames of L2 before and after lines `ks` of L1D were written back: the same lines, with bytes of their own where no
line of `ks` lies in them. -/
structure Merged (s : State) (o : CohOp) (ks ls ls' : List Line) : Prop where
  distinct : framesDistinct ls' = true
  empty : ∀ a b, lineAt ls a b = none → lineAt ls' a b = none
  line : ∀ a b l, lineAt ls a b = some l → ∃ d e, lineAt ls' a b = some { l with data := d, dirty := e } ∧
    (Untouched s o ks l → d = l.data ∧ e = l.dirty)

theorem Merged.refl {ls : List Line} (h : framesDistinct ls = true) (s : State) (o : CohOp) (ks : List Line) :
    Merged s o ks ls ls := ⟨h, fun _ _ => id, fun _ _ l hl => ⟨l.data, l.dirty, hl, fun _ => ⟨rfl, rfl⟩⟩⟩

theorem Merged.trans {s : State} {o : CohOp} {ks ls ls' ls'' : List Line} (h : Merged s o ks ls ls')
    (k : Merged s o ks ls' ls'') : Merged s o ks ls ls'' := by
  refine ⟨k.distinct, fun a b hn => k.empty a b (h.empty a b hn), fun a b l hl => ?_⟩
  obtain ⟨d, e, h1, h2⟩ := h.line a b l hl
  obtain ⟨d', e', h3, h4⟩ := k.line a b _ h1
  refine ⟨d', e', h3, fun hu => ?_⟩
  obtain ⟨rfl, rfl⟩ := h2 hu
  exact h4 hu

/-- One line written back into the L2 line that holds it. -/
theorem merged_putLine {s : State} {o : CohOp} {ks ls : List Line} (h : framesDistinct ls = true) {m : Line} (hm : m ∈ ls)
    {k : Line} (hk : k ∈ ks) (hd : k.dirty = true) (hr : s.inRange o .l1d k = true)
    (ha : m.addr .l2 s.l2Sets = k.addr .l1d s.l1dSets / 128 * 128) (d : List Byte) :
    Merged s o ks ls (putLine ls { m with data := d, dirty := true }) := by
  have hframe := lineAt_of_mem h hm
  refine ⟨framesDistinct_putLine _ h, fun a b hn => ?_, fun a b l hl => ?_⟩
  · rw [lineAt_putLine]
    split
    · next e =>
      obtain ⟨rfl, rfl⟩ := Prod.mk.inj e
      exact absurd (hframe.symm.trans hn) (by simp)
    · exact hn
  · rw [lineAt_putLine]
    split
    · next e =>
      obtain ⟨rfl, rfl⟩ := Prod.mk.inj e
      cases hframe.symm.trans hl
      exact ⟨d, true, rfl, fun hu => absurd ha.symm (hu k hk hd hr)⟩
    · exact ⟨l.data, l.dirty, hl, fun _ => ⟨rfl, rfl⟩⟩

/-- One treatment of a frame of L1P or L1D: the lines of L2, and which dirty lines L1D has left. -/
theorem treat_merged {s : State} (h : Arrived s) (o : CohOp) (f : Frame) (hf : f.cache ≠ .l2) (ks : List Line)
    (hks : ∀ k ∈ s.l1d.lines, k.dirty = true → k ∈ ks) (hd : framesDistinct s.l2.lines = true) :
    Merged s o ks s.l2.lines (s.treat o f).l2.lines ∧ ∀ k ∈ (s.treat o f).l1d.lines, k.dirty = true → k ∈ ks := by
  cases hl : lineAt (s.linesOf f.cache) f.set f.way with
  | none => rw [treat_of_none hl]; exact ⟨.refl hd .., hks⟩
  | some l =>
    cases hr : s.inRange o f.cache l with
    | false => rw [treat_of_not_inRange hl hr]; exact ⟨.refl hd .., hks⟩
    | true =>
      rw [treat_of_inRange hl hr]
      obtain ⟨y, a, b⟩ := f
      cases y with
      | l1p => exact ⟨.refl hd .., hks⟩
      | l2 => exact absurd rfl hf
      | l1d =>
        show Merged s o ks _ (s.treatL1d _ l).l2.lines ∧ ∀ k ∈ (s.treatL1d _ l).l1d.lines, _
        constructor
        · rw [treatL1d_of_noVictim h.1]
          obtain ⟨-, e | ⟨hc, hdirty, m, d, hm, e⟩⟩ := l1dLineOp_l2 s (cohAction o.reg) l
          · rw [e]; exact .refl hd ..
          · rw [e]
            exact merged_putLine hd (l2Lookup_mem hm) (hks l (lineAt_some hl).1 hdirty) hdirty hr (addr_of_l2Lookup hm) d
        · rw [treatL1d_lines]
          intro k hk hdirty
          unfold linesAfter at hk
          split at hk
          · exact hks k (mem_dropLine.1 hk).1 hdirty
          · exact hks k (mem_dropLine.1 hk).1 hdirty
          · split at hk
            · rcases List.mem_cons.1 hk with rfl | hk
              · cases hdirty
              · exact hks k (mem_dropLine.1 hk).1 hdirty
            · exact hks k hk hdirty

theorem Merged.congr {s t : State} (hs : ∀ x, t.setsIn x = s.setsIn x) {o : CohOp} {ks ls ls' : List Line}
    (h : Merged t o ks ls ls') : Merged s o ks ls ls' := by
  refine ⟨h.distinct, h.empty, fun a b l hl => ?_⟩
  obtain ⟨d, e, h1, h2⟩ := h.line a b l hl
  refine ⟨d, e, h1, fun hu => h2 fun k hk hd hr => ?_⟩
  have hd' : t.l1dSets = s.l1dSets := hs .l1d
  have h2' : t.l2Sets = s.l2Sets := hs .l2
  rw [hd', h2']
  exact hu k hk hd ((inRange_congr hs ..).symm.trans hr)

/-- Frames of L1P and L1D treated in turn. -/
theorem treatAll_merged {s : State} (h : Arrived s) (o : CohOp) (fs : List Frame) (hf : ∀ f ∈ fs, f.cache ≠ .l2) (ks : List Line)
    (hks : ∀ k ∈ s.l1d.lines, k.dirty = true → k ∈ ks) (hd : framesDistinct s.l2.lines = true) :
    Merged s o ks s.l2.lines (s.treatAll o fs).l2.lines := by
  induction fs generalizing s with
  | nil => exact .refl hd ..
  | cons f fs ih =>
    obtain ⟨harr, hsets, -⟩ := treat_spec h o f
    obtain ⟨hm, hks'⟩ := treat_merged h o f (hf f (List.mem_cons_self ..)) ks hks hd
    exact hm.trans ((ih harr (fun g hg => hf g (List.mem_cons_of_mem _ hg)) hks' hm.distinct).congr hsets)

/-! ### An operation run to its end -/

/-- The state in which the frames listed at the start have been treated. -/
def afterListed (s : State) (r : CohReg) (base words : Nat) : State :=
  (s.startOp r base words).treatAll (startedOp s r base words) (startedOp s r base words).todo

section
variable (s : State) (r : CohReg) (base words : Nat)

theorem startOp_arrived : Arrived (s.startOp r base words) := by
  rw [startOp_eq]; exact arrived_setOp (arrived_drained s) _ _

theorem startOp_setsIn (x : Block) : (s.startOp r base words).setsIn x = s.drainVictim.finishOut.setsIn x := by
  rw [startOp_eq]
  cases cohBlock r <;> cases x <;> rfl

theorem startedOp_todo_cache (f : Frame) (hf : f ∈ (startedOp s r base words).todo) : f.cache ∈ actsOn r ∧ f.cache ≠ .l2 := by
  obtain ⟨h1, h2, -⟩ := (mem_startedOp_todo ..).1 hf
  exact ⟨h1, h2⟩

theorem afterListed_spec : Arrived (afterListed s r base words) ∧
    ∀ x, (afterListed s r base words).setsIn x = s.drainVictim.finishOut.setsIn x := by
  obtain ⟨h1, h2⟩ := treatAll_arrived (startOp_arrived s r base words) (startedOp s r base words) (startedOp s r base words).todo
  exact ⟨h1, fun x => (h2 x).trans (startOp_setsIn ..)⟩

/-- The operation ends with its listed frames, and with the L2 frames where it acts on L2. -/
theorem finishOps_startOp (h : ∀ x, s.opOf x = none) : (s.startOp r base words).finishOps =
    (if Block.l2 ∈ actsOn r then (afterListed s r base words).treatAll (startedOp s r base words)
        ((afterListed s r base words).framesOf (startedOp s r base words) .l2)
      else afterListed s r base words).setOp (cohBlock r) none := by
  have hop : ∀ y, y ≠ cohBlock r → (s.startOp r base words).opOf y = none := by
    intro y hy
    rw [startOp_eq, setOp_opOf, if_neg hy, finishOut_opOf, drainVictim_opOf, h]
  obtain ⟨harr, -⟩ := afterListed_spec s r base words
  rw [finishOps_one _ _ hop]
  unfold State.finishOp
  rw [startOp_opOf_self]
  show State.setOp (State.settle (State.treatL2Frames (afterListed s r base words) _) _) _ _ = _
  unfold State.treatL2Frames
  rw [startedOp_listed, settle_arrived harr]
  by_cases ht : Block.l2 ∈ actsOn r
  · rw [(cohTouches_iff r .l2).2 ht, if_pos ht]
    rw [if_neg (by decide), settle_arrived (treatAll_arrived harr _ _).1]
  · have : cohTouches r .l2 = false := by rw [← Bool.not_eq_true, cohTouches_iff]; exact ht
    rw [this, if_neg ht, if_pos (by decide), settle_arrived harr]

variable {s r base words}

theorem framesOf_cache {t : State} {o : CohOp} {x : Block} {f : Frame} (hf : f ∈ t.framesOf o x) : f.cache = x :=
  ((mem_framesOf ..).1 hf).1

/-- The second part of an operation touches only L2. -/
theorem finished_linesOf_l1 (h : ∀ x, s.opOf x = none) {x : Block} (hx : x ≠ .l2) :
    (s.startOp r base words).finishOps.linesOf x = (afterListed s r base words).linesOf x := by
  rw [finishOps_startOp s r base words h, setOp_linesOf]
  split
  · exact treatAll_linesOf (afterListed_spec s r base words).1 _ _ x (fun f hf e => hx (e.symm.trans (framesOf_cache hf)))
      fun f _ => .inr fun e => absurd e hx
  · rfl

/-- The frames of L1P and L1D, where the operation acts on them. -/
theorem finished_lineAt_l1 (h : ∀ x, s.opOf x = none) {x : Block} (hx : x ≠ .l2) (hact : x ∈ actsOn r) (a b : Nat) :
    lineAt ((s.startOp r base words).finishOps.linesOf x) a b =
      frameLeft s.drainVictim.finishOut (startedOp s r base words) x (lineAt (s.drainVictim.finishOut.linesOf x) a b) := by
  rw [finished_linesOf_l1 h hx]
  unfold afterListed
  rw [treatAll_lineAt_reached (startOp_arrived s r base words) _ _ x (fun _ _ => .inr fun e => absurd e hx),
    frameLeft_congr (startOp_setsIn s r base words), startOp_linesOf]
  intro l hl hr
  rw [startOp_linesOf] at hl
  rw [inRange_congr (startOp_setsIn s r base words), inRange_iff] at hr
  exact (mem_startedOp_todo ..).2 ⟨hact, hx, l, hl, rfl, rfl, hr⟩

/-- The frames of L2, where the operation acts on it, from those after the listed frames. -/
theorem finished_lineAt_l2 (h : ∀ x, s.opOf x = none) (hact : Block.l2 ∈ actsOn r) (a b : Nat) :
    lineAt ((s.startOp r base words).finishOps.linesOf .l2) a b =
      frameLeft s.drainVictim.finishOut (startedOp s r base words) .l2 (lineAt (afterListed s r base words).l2.lines a b) := by
  obtain ⟨harr, hsets⟩ := afterListed_spec s r base words
  rw [finishOps_startOp s r base words h, setOp_linesOf, if_pos hact,
    treatAll_lineAt_reached harr _ _ .l2 fun f hf => .inl (framesOf_cache hf), frameLeft_congr hsets]
  · rfl
  · intro l hl hr
    exact (mem_framesOf ..).2 ⟨rfl, (cohTouches_iff ..).2 hact, l, hl, rfl, rfl, hr⟩

/-- A cache that the operation does not act on keeps its lines, L2 but under lines written back from L1D. -/
theorem finished_linesOf_other (h : ∀ x, s.opOf x = none) {x : Block} (hact : x ∉ actsOn r) (hx : x ≠ .l2 ∨ cohBlock r = .l1p) :
    (s.startOp r base words).finishOps.linesOf x = s.drainVictim.finishOut.linesOf x := by
  have hlisted : (afterListed s r base words).linesOf x = s.drainVictim.finishOut.linesOf x := by
    unfold afterListed
    rw [treatAll_linesOf (startOp_arrived s r base words), startOp_linesOf]
    · intro f hf e
      exact hact (e ▸ (startedOp_todo_cache s r base words f hf).1)
    · intro f hf
      refine .inr fun e hd => ?_
      have hb : cohBlock r = .l1p := hx.resolve_left fun hne => hne e
      have := (startedOp_todo_cache s r base words f hf).1
      rw [hd] at this
      revert hb this
      cases r <;> decide
  by_cases h2 : x = .l2
  · subst h2
    rw [finishOps_startOp s r base words h, setOp_linesOf, if_neg hact, hlisted]
  · rw [finished_linesOf_l1 h h2, hlisted]

end

/-- A writeback acts on no line of L1P. -/
theorem not_l1p_of_wb {r : CohReg} (h : cohAction r = .wb) {x : Block} (hx : x ∈ actsOn r) : x ≠ .l1p := by
  revert h hx; cases r <;> cases x <;> decide

theorem lineLeft_of_ne {c : CohAction} (h : c ≠ .wb) (x : Block) (l : Line) : lineLeft c x l = none := if_neg fun e => h e.1

theorem lineLeft_wb {x : Block} (h : x ≠ .l1p) (l : Line) : lineLeft .wb x l = some { l with dirty := false } :=
  if_pos ⟨rfl, h⟩

/-- An L1D line in a range lies in an L2 line in the range. -/
theorem untouched_of_unreached {s : State} {r : CohReg} {base words : Nat} {o : CohOp} (ho : o.reg = r ∧ o.base = base ∧ o.words = words)
    {l : Line} (h : ¬ reaches s r base words .l2 l) (ks : List Line) : Untouched s o ks l := by
  obtain ⟨rfl, rfl, rfl⟩ := ho
  intro k _ _ hr e
  rw [inRange_iff] at hr
  rcases hr with hg | ⟨h1, h2⟩
  · exact h (.inl hg)
  · refine h (.inr ?_)
    show l.addr .l2 s.l2Sets < _ ∧ _ < l.addr .l2 s.l2Sets + 128
    change k.addr .l1d s.l1dSets < _ at h1
    change _ < k.addr .l1d s.l1dSets + 64 at h2
    have haligned : k.addr .l1d s.l1dSets % 64 = 0 := Nat.mul_mod_left ..
    rw [← e]
    omega

section
variable {s : State} {r : CohReg} {base words : Nat} (h : ∀ x, s.opOf x = none) (hd : framesDistinct s.l2.lines = true)
include h

/-- What an operation run to its end leaves in a frame of a cache it acts on. -/
theorem finished_frame (hd : framesDistinct s.drainVictim.finishOut.l2.lines = true) {x : Block} (hact : x ∈ actsOn r) (a b : Nat) :
    let u := s.drainVictim.finishOut
    let t := (s.startOp r base words).finishOps
    (lineAt (u.linesOf x) a b = none → lineAt (t.linesOf x) a b = none) ∧
    ∀ l, lineAt (u.linesOf x) a b = some l →
      (¬reaches u r base words x l → lineAt (t.linesOf x) a b = some l) ∧
      (reaches u r base words x l → cohAction r ≠ .wb → lineAt (t.linesOf x) a b = none) ∧
      (reaches u r base words x l → cohAction r = .wb →
        ∃ d, lineAt (t.linesOf x) a b = some { l with data := d, dirty := false } ∧
          ((x = .l2 → ∀ k ∈ u.l1d.lines, k.dirty = true → reaches u r base words .l1d k →
            k.addr .l1d u.l1dSets / 128 * 128 ≠ l.addr .l2 u.l2Sets) → d = l.data)) := by
  intro u t
  let o := startedOp s r base words
  -- the frame before the treatment of its own cache: the line, with bytes written back into it if it is one of L2
  obtain ⟨mid, hmid, hempty, hline⟩ : ∃ mid : Option Line, lineAt (t.linesOf x) a b = frameLeft u o x mid ∧
      (lineAt (u.linesOf x) a b = none → mid = none) ∧
      ∀ l, lineAt (u.linesOf x) a b = some l → ∃ d e, mid = some { l with data := d, dirty := e } ∧
        ((x = .l2 → Untouched u o u.l1d.lines l) → d = l.data ∧ e = l.dirty) := by
    by_cases hx : x = .l2
    · subst hx
      have hm : Merged u o u.l1d.lines u.l2.lines (afterListed s r base words).l2.lines := by
        have hl2 : (s.startOp r base words).l2.lines = u.l2.lines := startOp_linesOf s r base words .l2
        have hl1d : (s.startOp r base words).l1d.lines = u.l1d.lines := startOp_linesOf s r base words .l1d
        have := treatAll_merged (startOp_arrived s r base words) o o.todo
          (fun f hf => (startedOp_todo_cache s r base words f hf).2) u.l1d.lines (fun k hk _ => hl1d ▸ hk) (hl2 ▸ hd)
        rw [hl2] at this
        exact this.congr (startOp_setsIn s r base words)
      refine ⟨_, finished_lineAt_l2 h hact a b, hm.empty a b, fun l hl => ?_⟩
      obtain ⟨d, e, h1, h2⟩ := hm.line a b l hl
      exact ⟨d, e, h1, fun hu => h2 (hu rfl)⟩
    · exact ⟨_, finished_lineAt_l1 h hx hact a b, fun hn => hn, fun l hl => ⟨l.data, l.dirty, hl, fun _ => ⟨rfl, rfl⟩⟩⟩
  have hreach : ∀ l : Line, u.inRange o x l = true ↔ reaches u r base words x l := fun l => inRange_iff ..
  refine ⟨fun hn => by rw [hmid, hempty hn]; rfl, fun l hl => ?_⟩
  obtain ⟨d, e, rfl, hdata⟩ := hline l hl
  have hsame : u.inRange o x { l with data := d, dirty := e } = u.inRange o x l := rfl
  refine ⟨fun hno => ?_, fun hyes hc => ?_, fun hyes hc => ⟨d, ?_, fun hu => ?_⟩⟩
  · obtain ⟨rfl, rfl⟩ := hdata fun hx => untouched_of_unreached ⟨rfl, rfl, rfl⟩ (hx ▸ hno) _
    rw [hmid, frameLeft_some, if_neg]
    rw [hsame, hreach]; exact hno
  · rw [hmid, frameLeft_some, hsame, (hreach l).2 hyes, if_pos rfl]
    exact lineLeft_of_ne hc ..
  · rw [hmid, frameLeft_some, hsame, (hreach l).2 hyes, if_pos rfl]
    show lineLeft (cohAction r) x _ = _
    rw [hc, lineLeft_wb (not_l1p_of_wb hc hact)]
  · exact (hdata fun hx k hk hdirty hr => hu hx k hk hdirty ((inRange_iff ..).1 hr)).1

/-- What a global operation run to its end leaves in a frame of a cache it acts on: nothing, or a clean line. -/
theorem finished_global (hg : cohIsBlock r = false) {x : Block} (hact : x ∈ actsOn r) (a b : Nat) :
    (cohAction r ≠ .wb → lineAt ((s.startOp r base words).finishOps.linesOf x) a b = none) ∧
    ∀ l, lineAt ((s.startOp r base words).finishOps.linesOf x) a b = some l → l.dirty = false := by
  obtain ⟨mid, hmid⟩ : ∃ mid : Option Line, lineAt ((s.startOp r base words).finishOps.linesOf x) a b =
      frameLeft s.drainVictim.finishOut (startedOp s r base words) x mid := by
    by_cases hx : x = .l2
    · subst hx; exact ⟨_, finished_lineAt_l2 h hact a b⟩
    · exact ⟨_, finished_lineAt_l1 h hx hact a b⟩
  rw [hmid]
  cases mid with
  | none => exact ⟨fun _ => rfl, fun l hl => nomatch hl⟩
  | some k =>
    have hr : s.drainVictim.finishOut.inRange (startedOp s r base words) x k = true := (inRange_iff ..).2 (.inl hg)
    rw [frameLeft_some, hr, if_pos rfl]
    refine ⟨fun hc => lineLeft_of_ne hc .., fun l hl => ?_⟩
    unfold lineLeft at hl
    split at hl
    · cases hl; rfl
    · cases hl

end

theorem readGlobal_idle {s : State} {r : CohReg} (h : s.opOf (cohBlock r) = none) : s.readGlobal r = 0#32 := by
  unfold State.readGlobal; rw [h]

theorem readCount_idle {s : State} {r : CohReg} (h : s.opOf (cohBlock r) = none) : s.readCount r = s.answer 0#32 := by
  unfold State.readCount; rw [h]

/-! ### Running to the end is stepping to the end -/

section
variable (s : State) (x : Block) (p : Option CohOp)

theorem setOp_plat : (s.setOp x p).plat = s.plat := by cases x <;> rfl
theorem setOp_emc : (s.setOp x p).emc = s.emc := by cases x <;> rfl
theorem setOp_bwm : (s.setOp x p).bwm = s.bwm := by cases x <;> rfl
theorem setOp_setEmc (e : Emc) : (s.setOp x p).setEmc e = (s.setEmc e).setOp x p := by cases x <;> rfl
theorem setOp_raise (e : Nat) : (s.setOp x p).raise e = (s.raise e).setOp x p := by cases x <;> rfl
theorem setOp_free : (s.setOp x p).free = s.free := by cases x <;> rfl

theorem setOp_busError (op : BusOp) (i : BitVec 4) (t : BitVec 3) :
    (s.setOp x p).busError op i t = (s.busError op i t).setOp x p := by
  unfold State.busError
  rw [setOp_emc, setOp_setEmc, setOp_raise, ← apply_ite (State.setOp · x p)]

theorem setOp_transact (op : BusOp) (a n : Nat) (q : Priv) (id : Nat) :
    (s.setOp x p).transact op a n q id = ((s.transact op a n q id).1.setOp x p, (s.transact op a n q id).2) := by
  unfold State.transact
  rw [setOp_emc, setOp_bwm]
  cases s.emc.replies with
  | nil => dsimp only; rw [setOp_setEmc]
  | cons r t =>
    cases r with
    | ok => dsimp only; rw [setOp_setEmc]
    | error i e => dsimp only; rw [setOp_setEmc, setOp_busError]

theorem setOp_extWriteLine (v : Victim) : (s.setOp x p).extWriteLine v = (s.extWriteLine v).setOp x p := by
  unfold State.extWriteLine State.busWrite
  rw [setOp_transact, setOp_plat]
  generalize s.transact .mdmaWrite v.addr v.bytes.length .supervisor s.plat.cpuId = r
  dsimp only
  rw [setOp_free]
  split_ifs <;> cases x <;> rfl

theorem setOp_finishOut : (s.setOp x p).finishOut = s.finishOut.setOp x p := by
  unfold State.finishOut
  rw [show (s.setOp x p).l2.out = s.l2.out by cases x <;> rfl]
  split
  · rfl
  · rw [← setOp_extWriteLine]
    cases x <;> rfl

theorem setOp_l2Lookup (a : Nat) : (s.setOp x p).l2Lookup a = s.l2Lookup a := by cases x <;> rfl

theorem setOp_l2WriteVictim (v : Victim) : (s.setOp x p).l2WriteVictim v = (s.l2WriteVictim v).setOp x p := by
  unfold State.l2WriteVictim State.l2Take
  obtain ⟨hregion, hram⟩ := region_congr (setOp_plat s x p) (by cases x <;> rfl) (by cases x <;> rfl) (by cases x <;> rfl) v.addr
  rw [hregion, hram, setOp_l2Lookup, setOp_finishOut]
  dsimp only
  rw [setOp_extWriteLine]
  split
  · cases x <;> rfl
  split
  · rfl
  split
  · cases x <;> rfl
  · rfl

theorem setOp_drainVictim : (s.setOp x p).drainVictim = s.drainVictim.setOp x p := by
  unfold State.drainVictim
  rw [show (s.setOp x p).l1d.victim = s.l1d.victim by cases x <;> rfl]
  split
  · rfl
  · rw [← setOp_l2WriteVictim]
    cases x <;> rfl

theorem setOp_l1dLineOp (c : CohAction) (l : Line) : (s.setOp x p).l1dLineOp c l = (s.l1dLineOp c l).setOp x p := by
  unfold State.l1dLineOp
  rw [show (s.setOp x p).l1dSets = s.l1dSets by cases x <;> rfl]
  cases c with
  | inv => cases x <;> rfl
  | wb =>
    dsimp only
    split
    · rw [← setOp_l2WriteVictim]; cases x <;> rfl
    · rfl
  | wbinv =>
    dsimp only
    split
    · rw [← setOp_l2WriteVictim]; cases x <;> rfl
    · cases x <;> rfl

theorem setOp_treatL1d (c : CohAction) (l : Line) : (s.setOp x p).treatL1d c l = (s.treatL1d c l).setOp x p := by
  unfold State.treatL1d
  rw [setOp_drainVictim, ← apply_ite (State.setOp · x p), setOp_l1dLineOp]

theorem setOp_treatL2 (c : CohAction) (l : Line) : (s.setOp x p).treatL2 c l = (s.treatL2 c l).setOp x p := by
  unfold State.treatL2
  rw [show (s.setOp x p).l2Sets = s.l2Sets by cases x <;> rfl]
  cases c with
  | inv => cases x <;> rfl
  | wb =>
    dsimp only
    split
    · rw [← setOp_extWriteLine, ← setOp_finishOut]; cases x <;> rfl
    · rfl
  | wbinv =>
    dsimp only
    split
    · rw [← setOp_extWriteLine, ← setOp_finishOut]; cases x <;> rfl
    · cases x <;> rfl

/-- The slot of the operation plays no part in the treatment of a frame. -/
theorem setOp_treat (o : CohOp) (f : Frame) : (s.setOp x p).treat o f = (s.treat o f).setOp x p := by
  cases hl : lineAt (s.linesOf f.cache) f.set f.way with
  | none => rw [treat_of_none hl, treat_of_none (by rw [setOp_linesOf]; exact hl)]
  | some l =>
    cases hr : s.inRange o f.cache l with
    | false =>
      rw [treat_of_not_inRange hl hr,
        treat_of_not_inRange (by rw [setOp_linesOf]; exact hl) (by rw [setOp_inRange]; exact hr)]
    | true =>
      rw [treat_of_inRange hl hr,
        treat_of_inRange (l := l) (by rw [setOp_linesOf]; exact hl) (by rw [setOp_inRange]; exact hr)]
      cases f.cache with
      | l1p => cases x <;> rfl
      | l1d => exact setOp_treatL1d ..
      | l2 => exact setOp_treatL2 ..

theorem setOp_treatAll (o : CohOp) (fs : List Frame) : (s.setOp x p).treatAll o fs = (s.treatAll o fs).setOp x p := by
  induction fs generalizing s with
  | nil => rfl
  | cons f fs ih => rw [treatAll_cons, setOp_treat, ih]; rfl

theorem setOp_treatBelow (o : CohOp) (a : Nat) : (s.setOp x p).treatBelow o a = (s.treatBelow o a).setOp x p := by
  unfold State.treatBelow
  rw [setOp_l2Lookup]
  split
  · rw [setOp_treat, ← apply_ite (State.setOp · x p)]
  · rfl

theorem setOp_settle (o : CohOp) : (s.setOp x p).settle o = (s.settle o).setOp x p := by
  have hout : ∀ t : State, (if covers o .l2 (t.setOp x p).l2.out then (t.setOp x p).finishOut else t.setOp x p) =
      (if covers o .l2 t.l2.out then t.finishOut else t).setOp x p := by
    intro t
    rw [show (t.setOp x p).l2.out = t.l2.out by cases x <;> rfl, setOp_finishOut, ← apply_ite (State.setOp · x p)]
  unfold State.settle
  rw [show (s.setOp x p).l1d.victim = s.l1d.victim by cases x <;> rfl]
  cases s.l1d.victim with
  | none => exact hout s
  | some v =>
    dsimp only
    rw [setOp_drainVictim, setOp_treatBelow, ← apply_ite (State.setOp · x p), hout]

theorem setOp_framesOf (o : CohOp) (y : Block) : (s.setOp x p).framesOf o y = s.framesOf o y := by
  unfold State.framesOf
  rw [setOp_linesOf]
  simp only [setOp_inRange]

theorem setOp_treatL2Frames (o : CohOp) : (s.setOp x p).treatL2Frames o = (s.treatL2Frames o).setOp x p := by
  unfold State.treatL2Frames
  rw [setOp_settle, setOp_framesOf, setOp_treatAll, ← apply_ite (State.setOp · x p)]

theorem setOp_setOp (q : Option CohOp) : (s.setOp x p).setOp x q = s.setOp x q := by cases x <;> rfl

end

theorem finishOp_some {s : State} {x : Block} {o : CohOp} (h : s.opOf x = some o) :
    s.finishOp x = (((s.treatAll o o.todo).treatL2Frames o).settle o).setOp x none := by
  unfold State.finishOp; rw [h]

/-- One listed frame, and the rest of the operation. -/
theorem finishOp_step {s : State} {x : Block} {o : CohOp} (h : s.opOf x = some o) (hmore : o.todo ≠ [] ∨ o.l2Listed = false) :
    s.finishOp x = (s.cohStep x 0).finishOp x := by
  cases htodo : o.todo with
  | cons f fs =>
    have hstep : s.cohStep x 0 = (s.setOp x (some { o with todo := fs })).treat o f := by
      rw [cohStep_listed h (f := f) (by rw [htodo]; rfl), htodo]; rfl
    have hop : (s.cohStep x 0).opOf x = some { o with todo := fs } := by
      rw [hstep, treat_opOf, setOp_opOf, if_pos rfl]
    rw [finishOp_some h, finishOp_some hop, hstep, htodo, treatAll_cons]
    show _ = State.setOp (State.settle (State.treatL2Frames (State.treatAll _ o fs) o) o) x none
    rw [setOp_treat, setOp_treatAll, setOp_treatL2Frames, setOp_settle, setOp_setOp]
  | nil =>
    have hl : o.l2Listed = false := hmore.resolve_left fun hne => hne htodo
    let o' : CohOp := { o with todo := (s.settle o).framesOf o .l2, l2Listed := true }
    have hstep : s.cohStep x 0 = (s.settle o).setOp x (some o') := by
      rw [cohStep_past h (by rw [htodo]; exact Nat.le_refl 0), hl, htodo]
      show (s.settle o).setOp x (some { o with todo := o.todo ++ _, l2Listed := true }) = _
      rw [htodo]; rfl
    have hop : (s.cohStep x 0).opOf x = some o' := by rw [hstep, setOp_opOf, if_pos rfl]
    rw [finishOp_some h, finishOp_some hop, hstep, htodo]
    show State.setOp (State.settle (State.treatL2Frames s o) o) x none =
      State.setOp (State.settle (State.treatAll _ o ((s.settle o).framesOf o .l2)) o) x none
    rw [setOp_treatAll, setOp_settle, setOp_setOp]
    unfold State.treatL2Frames
    rw [hl]; rfl

/-- The last step. -/
theorem finishOp_last {s : State} {x : Block} {o : CohOp} (h : s.opOf x = some o) (htodo : o.todo = []) (hl : o.l2Listed = true) :
    s.finishOp x = s.cohStep x 0 := by
  rw [finishOp_some h, cohStep_past h (by rw [htodo]; exact Nat.le_refl 0), hl, htodo]
  unfold State.treatL2Frames
  rw [hl]; rfl

theorem finishOut_drained_distinct {s : State} (h : framesDistinct s.l2.lines = true) :
    framesDistinct s.drainVictim.finishOut.l2.lines = true := by
  rw [finishOut_l2]
  unfold State.drainVictim
  split
  · exact h
  · next v _ =>
    obtain ⟨-, e | ⟨m, -, e⟩⟩ := l2WriteVictim_l2 (s.setL1d { s.l1d with victim := none }) v
    · rw [e]; exact h
    · rw [e]; exact framesDistinct_putLine _ h

/-- Settles O26: the frames of each cache after the listed frames and the L2 frames were treated; and the steps that this is. -/
theorem finishedOperationReachesItsLines : Obligations.FinishedOperationReachesItsLines := by
  refine ⟨fun s r v hv hg => ?_, fun s r base words h hd => ?_, fun s => ⟨rfl, fun x => ⟨finishOp_none s x, fun o ho => ?_⟩⟩⟩
  · intro t
    have hidle : ∀ x, s.finishOps.opOf x = none := finishOps_opOf s
    have ht : t = (s.finishOps.startOp r 0 0).finishOps := by
      show State.finishOps (if v.getLsbD 0 then _ else _) = _
      rw [hv]; rfl
    rw [ht]
    exact ⟨fun hc x hx => eq_nil_of_lineAt fun a b => (finished_global hidle hg hx a b).1 hc,
      fun _ x hx a b l hl => (finished_global hidle hg hx a b).2 l hl, readGlobal_idle (finishOps_opOf _ _)⟩
  · exact ⟨fun x hx a b => finished_frame h (finishOut_drained_distinct hd) hx a b, fun x hx hno => finished_linesOf_other h hx hno,
      finishOps_opOf _, fun _ => readGlobal_idle (finishOps_opOf _ _), fun _ => readCount_idle (finishOps_opOf _ _)⟩
  · exact ⟨finishOp_step ho, finishOp_last ho⟩

end Sys2Proof.Proofs.FinishedOperations

/-!
PROOFS. Which bytes a line that leaves a cache delivers, whole or word by word (spec/20_memory.md sections 2, 4 and 6).
-/
namespace Sys2Proof.Proofs.LineBytes
open Sys2Proof Sys2Proof.Machine Sys2Proof.Proofs.Dma Sys2Proof.Proofs.Frames Sys2Proof.Proofs.FinishedOperations

/-! ### Bytes that arrive -/

theorem putMasked_delivers {s : State} (hw : s.mem.wf = true) {a i : Nat} {bs : List (Option Byte)} {b : Byte}
    (hi : bs[i]? = some (some b)) (hr : s.plat.isRom (a + i) = false) : (s.putMasked a bs).mem.read (a + i) = b := by
  rw [State.putMasked_read hw, hr, if_neg Bool.false_ne_true, if_pos (Nat.le_add_right a i), Nat.add_sub_cancel_left, hi]
  rfl

theorem extPut_delivers {s : State} (hw : s.mem.wf = true) {a i : Nat} {bs : List (Option Byte)} {b : Byte}
    (hi : bs[i]? = some (some b)) : (s.extPut a bs).mem.read (a + i) = b := by
  show (s.mem.writeMasked a bs).read (a + i) = b
  rw [Memory.read_writeMasked hw, if_pos (Nat.le_add_right a i), Nat.add_sub_cancel_left, hi]
  rfl

theorem transact_ok {s : State} (h : s.emc.replies.head? ∈ [none, some BusReply.ok]) (op : BusOp) (a n : Nat) (p : Priv)
    (id : Nat) : (s.transact op a n p id).2 = true := by
  unfold State.transact
  cases hr : s.emc.replies with
  | nil => rfl
  | cons r t =>
    cases r with
    | ok => rfl
    | error x e => rw [hr] at h; simp at h

/-- A line that goes out to external memory delivers its bytes if the transaction succeeds. -/
theorem extWriteLine_delivers {s : State} (hw : s.mem.wf = true) (h : s.emc.replies.head? ∈ [none, some BusReply.ok]) {v : Victim}
    {i : Nat} {b : Byte} (hi : v.bytes[i]? = some (some b)) : (s.extWriteLine v).mem.read (v.addr + i) = b := by
  unfold State.extWriteLine State.busWrite
  dsimp only
  rw [transact_ok h]
  exact extPut_delivers (by rw [transact_mem]; exact hw) hi

theorem finishOut_of_some {s : State} {w : Victim} (h : s.l2.out = some w) :
    s.finishOut = (s.setL2 { s.l2 with out := none }).extWriteLine w := by unfold State.finishOut; rw [h]

theorem finishOut_of_none {s : State} (h : s.l2.out = none) : s.finishOut = s := by unfold State.finishOut; rw [h]

theorem drainVictim_of_some {s : State} {v : Victim} (h : s.l1d.victim = some v) :
    s.drainVictim = (s.setL1d { s.l1d with victim := none }).l2WriteVictim v := by unfold State.drainVictim; rw [h]

/-! ### A treated line and what it stores -/

/-- Whether an operation writes a line back. -/
theorem writesBack_iff (c : CohAction) (l : Line) : (decide (c ≠ .inv) && l.dirty) = true ↔ c ≠ .inv ∧ l.dirty = true := by
  rw [Bool.and_eq_true, decide_eq_true_eq]

/-- An L1D line that is written back goes to L2 from a state that differs in L1D's lines only. -/
theorem l1dLineOp_writesBack (s : State) (c : CohAction) (l : Line) (hc : c ≠ .inv) (hd : l.dirty = true) :
    ∃ ls, s.l1dLineOp c l = (s.setL1d { s.l1d with lines := ls }).l2WriteVictim (l.out .l1d s.l1dSets) := by
  unfold State.l1dLineOp
  cases c with
  | inv => exact absurd rfl hc
  | wb => rw [hd]; exact ⟨_, rfl⟩
  | wbinv => rw [hd]; exact ⟨_, rfl⟩

theorem l1dLineOp_mem_kept (s : State) (c : CohAction) (l : Line) (h : c = .inv ∨ l.dirty = false) :
    (s.l1dLineOp c l).mem = s.mem := by
  unfold State.l1dLineOp
  cases c with
  | inv => rfl
  | wb => rw [h.resolve_left CohAction.noConfusion]; rfl
  | wbinv => rw [h.resolve_left CohAction.noConfusion]; rfl

/-- An L2 line that is written out goes from a state that differs in L2's lines only. -/
theorem treatL2_writesBack (s : State) (c : CohAction) (l : Line) (hc : c ≠ .inv) (hd : l.dirty = true) :
    ∃ ls, s.treatL2 c l = (s.setL2 { s.l2 with lines := ls }).finishOut.extWriteLine (l.out .l2 s.l2Sets) := by
  unfold State.treatL2
  cases c with
  | inv => exact absurd rfl hc
  | wb => rw [hd]; exact ⟨_, rfl⟩
  | wbinv => rw [hd]; exact ⟨_, rfl⟩

theorem treatL2_mem_kept (s : State) (c : CohAction) (l : Line) (h : c = .inv ∨ l.dirty = false) :
    (s.treatL2 c l).mem = s.mem := by
  unfold State.treatL2
  cases c with
  | inv => rfl
  | wb => rw [h.resolve_left CohAction.noConfusion]; rfl
  | wbinv => rw [h.resolve_left CohAction.noConfusion]; rfl

theorem not_writesBack {c : CohAction} {l : Line} (h : ¬(c ≠ .inv ∧ l.dirty = true)) : c = .inv ∨ l.dirty = false := by
  by_cases hc : c = .inv
  · exact .inl hc
  · exact .inr (Bool.eq_false_iff.2 fun hd => h ⟨hc, hd⟩)

theorem treatL1d_kept (s : State) (c : CohAction) (l : Line) (h : c = .inv ∨ l.dirty = false) : s.treatL1d c l = s.l1dLineOp c l := by
  unfold State.treatL1d
  rw [if_neg]
  rw [writesBack_iff]
  rintro ⟨hc, hd⟩
  rcases h with h | h
  · exact hc h
  · rw [h] at hd; cases hd

theorem treatL1d_writesBack (s : State) (c : CohAction) (l : Line) (hc : c ≠ .inv) (hd : l.dirty = true) :
    s.treatL1d c l = s.drainVictim.l1dLineOp c l := by
  unfold State.treatL1d
  rw [if_pos ((writesBack_iff c l).2 ⟨hc, hd⟩)]

theorem drainVictim_sets (s : State) (x : Block) : s.drainVictim.setsIn x = s.setsIn x := by
  have m := l2m_drainVictim s
  obtain ⟨_, _, _, _, e⟩ := m.l2
  exact setsIn_congr m.plat (congrArg L1p.mode m.l1p) (congrArg L1d.mode m.l1d) (by rw [e]) x

/-- After the victim has gone an evicted line is on its way only if it was before. -/
theorem drainVictim_out (s : State) : s.drainVictim.l2.out = s.l2.out ∨ s.drainVictim.l2.out = none := by
  unfold State.drainVictim
  split
  · exact .inl rfl
  · exact (l2WriteVictim_l2 _ _).1

theorem out_length (l : Line) (x : Block) (sets : Nat) : (l.out x sets).bytes.length = l.data.length := List.length_map _

/-- Bytes that lie neither in the line nor in the one that L2 has evicted. -/
theorem treatL1d_read (s : State) (c : CohAction) (l : Line) (hw : s.mem.wf = true) (a : Nat)
    (ha : a < l.addr .l1d s.l1dSets ∨ l.addr .l1d s.l1dSets + l.data.length ≤ a) (ho : ∀ w, s.l2.out = some w → Outside w a) :
    (s.treatL1d c l).mem.read a = (if c ≠ .inv ∧ l.dirty = true then s.drainVictim else s).mem.read a := by
  by_cases h : c ≠ .inv ∧ l.dirty = true
  · obtain ⟨ls, e⟩ := l1dLineOp_writesBack s.drainVictim c l h.1 h.2
    rw [if_pos h, treatL1d_writesBack s c l h.1 h.2, e]
    refine l2WriteVictim_read (s.drainVictim.setL1d { s.drainVictim.l1d with lines := ls }) _ (drainVictim_wf s hw) a ?_
      fun w hout => ?_
    · have hsets : s.drainVictim.l1dSets = s.l1dSets := drainVictim_sets s .l1d
      unfold Outside
      rw [out_length, hsets]
      exact ha
    · change s.drainVictim.l2.out = some w at hout
      rcases drainVictim_out s with e' | e'
      · exact ho w (e' ▸ hout)
      · rw [e'] at hout; cases hout
  · rw [if_neg h, treatL1d_kept s c l (not_writesBack h), l1dLineOp_mem_kept s c l (not_writesBack h)]

theorem treatL2_read (s : State) (c : CohAction) (l : Line) (hw : s.mem.wf = true) (a : Nat)
    (ha : a < l.addr .l2 s.l2Sets ∨ l.addr .l2 s.l2Sets + l.data.length ≤ a) (ho : ∀ w, s.l2.out = some w → Outside w a) :
    (s.treatL2 c l).mem.read a = s.mem.read a := by
  by_cases h : c ≠ .inv ∧ l.dirty = true
  · obtain ⟨ls, e⟩ := treatL2_writesBack s c l h.1 h.2
    have hw' : (s.setL2 { s.l2 with lines := ls }).mem.wf = true := hw
    rw [e, extWriteLine_read _ _ (finishOut_wf _ hw') a (by unfold Outside; rw [out_length]; exact ha), finishOut_read _ hw' a ho]
    rfl
  · rw [treatL2_mem_kept s c l (not_writesBack h)]

/-! ### Where a written back line goes -/

/-- The three destinations of a line that L1D has sent on, from a state `w` that differs from `u` in L1D only. -/
theorem l2WriteVictim_delivers {u : State} (x : L1d) (hx : x.mode = u.l1d.mode) (hw : u.mem.wf = true) (v : Victim) :
    let t := (u.setL1d x).l2WriteVictim v
    (u.inL2Ram v.addr = true → ∀ i b, v.bytes[i]? = some (some b) → u.plat.isRom (v.addr + i) = false →
      t.mem.read (v.addr + i) = b) ∧
    (u.inL2Ram v.addr = false → u.region v.addr ≠ .l2CacheArea → ∀ m, u.l2Lookup v.addr = some m → t.mem = u.mem ∧
      t.l2.lines = putLine u.l2.lines { m with data := overlay m.data (v.addr % 128) v.bytes, dirty := true }) ∧
    (u.inL2Ram v.addr = false → u.region v.addr ≠ .l2CacheArea → u.l2Lookup v.addr = none →
      u.finishOut.emc.replies.head? ∈ [none, some BusReply.ok] → ∀ i b, v.bytes[i]? = some (some b) → t.mem.read (v.addr + i) = b) := by
  obtain ⟨hregion, hram⟩ := region_congr (s := u) (t := u.setL1d x) rfl rfl hx rfl v.addr
  have hlook : (u.setL1d x).l2Lookup v.addr = u.l2Lookup v.addr := rfl
  intro t
  have ht : t = (u.setL1d x).l2WriteVictim v := rfl
  unfold State.l2WriteVictim State.l2Take at ht
  rw [hram, hregion, hlook] at ht
  refine ⟨fun h i b hi hrom => ?_, fun h hr m hm => ?_, fun h hr hn hok i b hi => ?_⟩
  · rw [h, if_pos rfl] at ht
    rw [ht]
    exact putMasked_delivers (s := (u.setL1d x).wakePages v.addr) hw hi hrom
  · rw [h, if_neg Bool.false_ne_true, if_neg hr, hm] at ht
    rw [ht]
    exact ⟨rfl, rfl⟩
  · rw [h, if_neg Bool.false_ne_true, if_neg hr, hn] at ht
    rw [ht, setL1d_finishOut]
    exact extWriteLine_delivers (s := u.finishOut.setL1d x) (finishOut_wf u hw) hok hi

/-! ### Word by word -/

/-- A word of a line that is stored on its own: its bytes, and no other byte. -/
def WordStored (s : State) (v : Victim) (i : Nat) (t : State) : Prop :=
  (∀ j b, j / 4 = i → v.bytes[j]? = some (some b) → s.plat.isRom (v.addr + j) = false → t.mem.read (v.addr + j) = b) ∧
  ∀ a, (a < v.addr + 4 * i ∨ v.addr + 4 * i + 4 ≤ a) → t.mem.read a = s.mem.read a

theorem word_getElem? (v : Victim) (i j : Nat) : (v.word i).bytes[j]? = if j / 4 = i then v.bytes[j]? else v.bytes[j]?.map fun _ => none := by
  show (v.bytes.mapIdx fun j b => if j / 4 = i then b else none)[j]? = _
  rw [List.getElem?_mapIdx]
  cases v.bytes[j]? with
  | none => simp
  | some b => by_cases h : j / 4 = i <;> simp [h]

/-- Outside word `i` of the line its mask has no byte. -/
theorem word_join_outside (v : Victim) (i a : Nat) (h : a < v.addr + 4 * i ∨ v.addr + 4 * i + 4 ≤ a) :
    (if v.addr ≤ a then (v.word i).bytes[a - v.addr]?.join else none) = none := by
  split
  · rw [word_getElem?, if_neg (by omega)]
    cases v.bytes[a - v.addr]? <;> rfl
  · rfl

theorem wordStored_putMasked {s : State} (hw : s.mem.wf = true) (v : Victim) (i : Nat) :
    WordStored s v i (s.putMasked v.addr (v.word i).bytes) := by
  refine ⟨fun j b hj hb hr => putMasked_delivers hw ?_ hr, fun a ha => ?_⟩
  · rw [word_getElem?, if_pos hj, hb]
  · rw [State.putMasked_read hw, word_join_outside v i a ha]
    exact ite_self _

theorem wordStored_extPut {s : State} (hw : s.mem.wf = true) (v : Victim) (i : Nat) :
    WordStored s v i (s.extPut v.addr (v.word i).bytes) := by
  refine ⟨fun j b hj hb _ => extPut_delivers hw ?_, fun a ha => ?_⟩
  · rw [word_getElem?, if_pos hj, hb]
  · show (s.mem.writeMasked v.addr (v.word i).bytes).read a = _
    rw [Memory.read_writeMasked hw, word_join_outside v i a ha]; rfl

theorem victimWord_eq {s : State} {v : Victim} (h : s.l1d.victim = some v) (i : Nat) : s.victimWord i =
    (s.setL1d { s.l1d with victim := some (v.without i) }).l2Take (v.word i) fun t => t.extPut v.addr (v.word i).bytes := by
  unfold State.victimWord; rw [h]

theorem outWord_eq {s : State} {v : Victim} (h : s.l2.out = some v) (i : Nat) : s.outWord i =
    (s.setL2 { s.l2 with out := some (v.without i) }).extPut v.addr (v.word i).bytes := by
  unfold State.outWord; rw [h]

/-- A word of the victim, by where its line goes. -/
theorem victimWord_stores {s : State} (hw : s.mem.wf = true) {v : Victim} (h : s.l1d.victim = some v) (i : Nat) :
    (s.inL2Ram v.addr = true ∨ s.l2.out = none ∧ s.region v.addr ≠ .l2CacheArea ∧ s.l2Lookup v.addr = none →
      WordStored s v i (s.victimWord i)) ∧
    (s.inL2Ram v.addr = false → s.region v.addr ≠ .l2CacheArea → ∀ m, s.l2Lookup v.addr = some m →
      (s.victimWord i).mem = s.mem ∧ (s.victimWord i).l2.lines =
        putLine s.l2.lines { m with data := overlay m.data (v.addr % 128) (v.word i).bytes, dirty := true }) := by
  let w := s.setL1d { s.l1d with victim := some (v.without i) }
  obtain ⟨hregion, hram⟩ := region_congr (s := s) (t := w) rfl rfl rfl rfl v.addr
  have hlook : w.l2Lookup v.addr = s.l2Lookup v.addr := rfl
  have ht : s.victimWord i = if w.inL2Ram v.addr then (w.wakePages v.addr).putMasked v.addr (v.word i).bytes
      else if w.region v.addr = .l2CacheArea then w
      else match w.l2Lookup v.addr with
        | some l => w.l2Merge l (v.addr % 128) (v.word i).bytes
        | none => w.finishOut.extPut v.addr (v.word i).bytes := victimWord_eq h i
  rw [hram, hregion, hlook] at ht
  have ram : s.inL2Ram v.addr = true → WordStored s v i (s.victimWord i) := by
    intro hr
    rw [ht, hr, if_pos rfl]
    exact wordStored_putMasked (s := w.wakePages v.addr) hw v i
  refine ⟨fun hdest => ?_, fun hr hne m hm => ?_⟩
  · rcases hdest with hr | ⟨hout, hne, hn⟩
    · exact ram hr
    · cases hr : s.inL2Ram v.addr with
      | true => exact ram hr
      | false =>
        rw [ht, hr, if_neg Bool.false_ne_true, if_neg hne, hn]
        show WordStored s v i (w.finishOut.extPut v.addr (v.word i).bytes)
        rw [finishOut_of_none (s := w) hout]
        exact wordStored_extPut (s := w) hw v i
  · rw [ht, hr, if_neg Bool.false_ne_true, if_neg hne, hm]
    exact ⟨rfl, rfl⟩

/-- Settles O25: the line by the treatment that sends it, its destinations by the rules for L2 RAM, an L2 line and external
memory, and the words by their masks. -/
theorem writtenBackLineStoresOnlyItsBytes : Obligations.WrittenBackLineStoresOnlyItsBytes := by
  refine ⟨fun s c l hw => ⟨fun v hv a ha ho => ?_, fun a ha ho => treatL1d_read s c l hw a ha ho,
      fun a ha ho => treatL2_read s c l hw a ha ho, fun a ho => finishOut_read s hw a ho, fun h => ⟨?_, treatL2_mem_kept s c l h⟩⟩,
    fun s u t v hw hsent => ?_, fun s c l hw hc hd hok i hi => ?_, fun s a l hout => ?_,
    fun s w hw hout => ⟨by rw [finishOut_l2], fun hok j b hj => ?_⟩,
    fun s v i hw => ⟨fun hv => ⟨?_, victimWord_stores hw hv i⟩, fun hout => ⟨?_, ?_⟩⟩⟩
  · rw [drainVictim_of_some hv]
    exact l2WriteVictim_read (s.setL1d { s.l1d with victim := none }) v hw a ha ho
  · rw [treatL1d_kept s c l h, l1dLineOp_mem_kept s c l h]
  · obtain ⟨x, hx, rfl, huw, hplat, hregion, hram⟩ : ∃ x : L1d, x.mode = u.l1d.mode ∧ t = (u.setL1d x).l2WriteVictim v ∧
        u.mem.wf = true ∧ u.plat = s.plat ∧ u.region v.addr = s.region v.addr ∧ u.inL2Ram v.addr = s.inL2Ram v.addr := by
      rcases hsent with ⟨hv, rfl, rfl⟩ | ⟨c, l, hc, hd, rfl, rfl, rfl⟩
      · exact ⟨{ u.l1d with victim := none }, rfl, drainVictim_of_some hv, hw, rfl, rfl, rfl⟩
      · obtain ⟨ls, e⟩ := l1dLineOp_writesBack s.drainVictim c l hc hd
        have m := l2m_drainVictim s
        obtain ⟨_, _, _, _, e2⟩ := m.l2
        have hsets : s.drainVictim.l1dSets = s.l1dSets := drainVictim_sets s .l1d
        obtain ⟨h1, h2⟩ := region_congr (s := s) m.plat (congrArg L1p.mode m.l1p) (by rw [m.l1d]; rfl) (by rw [e2]; rfl)
          (l.addr .l1d s.l1dSets)
        refine ⟨{ s.drainVictim.l1d with lines := ls }, rfl, ?_, drainVictim_wf s hw, m.plat, h1, h2⟩
        rw [treatL1d_writesBack s c l hc hd, e, hsets]; rfl
    rw [← hregion, ← hram, ← hplat]
    exact l2WriteVictim_delivers x hx huw v
  · obtain ⟨ls, e⟩ := treatL2_writesBack s c l hc hd
    have hok' : (s.setL2 { s.l2 with lines := ls }).finishOut.emc.replies.head? ∈ [none, some BusReply.ok] := by
      rw [setL2_finishOut s { s.l2 with lines := ls } rfl]; exact hok
    rw [e, List.getElem?_eq_getElem hi]
    have hw' : (s.setL2 { s.l2 with lines := ls }).mem.wf = true := hw
    refine congrArg some (extWriteLine_delivers (v := l.out .l2 s.l2Sets) (finishOut_wf _ hw') hok' ?_)
    show (l.data.map some)[i]? = _
    rw [List.getElem?_map, List.getElem?_eq_getElem hi]; rfl
  · intro set way hl
    obtain ⟨-, hset, hway⟩ := lineAt_some hl
    have hv : s.l2Victim a = if l.dirty then some l else none := by
      unfold State.l2Victim
      rw [show lineAt s.l2.lines (Machine.setOf .l2 s.l2Sets a) ((s.l2.order (Machine.setOf .l2 s.l2Sets a)).headD 0) = some l from hl]
      cases hd : l.dirty <;> simp [Option.filter, hd]
    unfold State.l2Evict
    rw [hv]
    cases hd : l.dirty with
    | true =>
      rw [if_pos rfl, if_pos rfl, finishOut_of_none hout, ← hset, ← hway]
      rfl
    | false => rw [if_neg Bool.false_ne_true]; rfl
  · rw [finishOut_of_some hout]
    exact extWriteLine_delivers (s := s.setL2 { s.l2 with out := none }) hw hok hj
  · rw [victimWord_eq hv i]
    exact l2Take_l1d (s.setL1d _) _ _ fun _ => rfl
  · rw [outWord_eq hout i]; rfl
  · rw [outWord_eq hout i]
    exact wordStored_extPut (s := s.setL2 { s.l2 with out := some (v.without i) }) hw v i

end Sys2Proof.Proofs.LineBytes

/-!
PROOFS. Cache control: the mode changes (spec/40_l1p.md R179, spec/41_l1d.md R231, spec/42_l2.md R296) and the writes of the
coherence registers (spec/42_l2.md section 5).
-/
namespace Sys2Proof.Proofs.CacheControl
open Sys2Proof Sys2Proof.Machine Sys2Proof.Proofs.Frames Sys2Proof.Proofs.Reset Sys2Proof.Proofs.CoherenceSteps Sys2Proof.Proofs.FinishedOperations
  Sys2Proof.Proofs.LineBytes

/-! ### Mode changes -/

/-- Settles O18: the mode, the empty cache and its power-down, then the RAM that forgets. -/
theorem l1pModeChange : Obligations.L1pModeChange := by
  intro s v h size lost down
  let u := (s.setL1p { s.l1p with mode := v.setWidth 3, lines := [] }).setAsleep .l1p
  have hsize : largerSize s.l1pSize (s.plat.l1p.cacheSize (v.setWidth 3)) = size := larger_eq ..
  have ht : s.setL1pMode (v.setWidth 3) = u.forget (s.plat.l1p.cacheSpan size) := by rw [← hsize]; rfl
  refine ⟨(u.forget (s.plat.l1p.cacheSpan size)).setReply .none, ?_, ?_, fun a => ?_⟩
  · rw [← ht]; exact if_pos h
  · rw [forget_eq]; rfl
  · exact forget_read u (s.plat.l1p.cacheSpan size) a

/-- What the flush of L1D keeps, and what it leaves of L1D. -/
theorem flushL1d_spec (s : State) : s.flushL1d.plat = s.plat ∧ s.flushL1d.pdc = s.pdc ∧
    ∃ ls, s.flushL1d.l1d = { s.l1d with lines := ls, victim := none } := by
  have hp := foldl_power (fun t l => t.treatL1d .wbinv l) (fun t l => ⟨(treatL1d_power t .wbinv l).1, (treatL1d_power t .wbinv l).2.1⟩)
    s.l1d.lines s.drainVictim
  obtain ⟨ls, hl⟩ := flush_l1d s.l1d.lines s.drainVictim (by rw [drainVictim_l1d])
  exact ⟨hp.1.trans (drainVictim_power s).1, hp.2.trans (drainVictim_power s).2, ls, by unfold State.flushL1d; rw [hl, drainVictim_l1d]⟩

/-- Settles O19: the flush, the mode, the empty cache and its power-down, then the RAM that forgets. -/
theorem l1dModeChange : Obligations.L1dModeChange := by
  intro s v h size lost down u
  have hu : u = s.flushL1d := rfl
  obtain ⟨hplat, hpdc, ls, hl1d⟩ := flushL1d_spec s
  rw [← hu] at hplat hpdc hl1d
  let w := (u.setL1d { u.l1d with mode := v.setWidth 3, lines := [] }).setAsleep .l1d
  have hsize : largerSize s.l1dSize (s.plat.l1d.cacheSize (v.setWidth 3)) = size := larger_eq ..
  have ht : s.setL1dMode (v.setWidth 3) = w.forget (s.plat.l1d.cacheSpan size) := by rw [← hsize]; rfl
  let t := (w.forget (s.plat.l1d.cacheSpan size)).setReply .none
  have hread : ∀ a, t.mem.read a = if lost a then Config.freeByte u.free a else u.mem.read a := fun a => by
    show (w.forget _).mem.read a = _
    rw [forget_read, show w.plat = s.plat from hplat]; rfl
  have htl1d : t.l1d = { s.l1d with mode := v.setWidth 3, lines := [], victim := none } := by
    show (w.forget _).l1d = _
    rw [forget_l1d]
    show { u.l1d with mode := v.setWidth 3, lines := [] } = _
    rw [hl1d]
  have hpower : w.pdc = { s.pdc with l1dAsleep := down } := by
    show { u.pdc with l1dAsleep := u.pdc.mmAsleep || decide (u.plat.l1d.cacheSize (v.setWidth 3) = 0) } = _
    rw [hpdc, hplat]
  have hframe0 : t = { w with mem := t.mem, free := t.free, reply := .none } := by
    show (w.forget _).setReply .none = _
    rw [forget_eq]; rfl
  have hframe : t = { u with l1d := t.l1d, pdc := { s.pdc with l1dAsleep := down }, mem := t.mem, free := t.free, reply := .none } := by
    rw [← hpower, show t.l1d = w.l1d by rw [hframe0]]; exact hframe0
  refine ⟨t, ?_, htl1d, hframe, hread, fun hv hclean => ?_⟩
  · show (if s.mayWrite then (s.setL1dMode (v.setWidth 3)).done else _) = _
    rw [if_pos h, ht]; rfl
  · have hus : u = { s with l1d := { s.l1d with lines := u.l1d.lines } } := by
      have := flush_clean s.l1d.lines s hclean
      rw [hu]; unfold State.flushL1d; rw [drainVictim_of_none hv]; exact this
    have hmem : u.mem = s.mem := by rw [hus]
    have hfree : u.free = s.free := by rw [hus]
    refine ⟨hframe.trans (by rw [hus]), fun a => ?_⟩
    rw [hread, hmem, hfree]

theorem forget_forget_eq (s : State) (r1 r2 : Span) :
    (s.forget r1).forget r2 = { s with mem := ((s.forget r1).forget r2).mem, free := ((s.forget r1).forget r2).free } :=
  (forget_eq (s.forget r1) r2).trans
    (congrArg (fun y : State => { y with mem := ((s.forget r1).forget r2).mem, free := ((s.forget r1).forget r2).free })
      (forget_eq s r1))

/-- What the two invalidates that `L2CFG` starts leave. -/
theorem l2cfgInvalidates_spec (s : State) (v : Word) : let t := s.l2cfgInvalidates v
    (v.getLsbD 9 = true → v.getLsbD 8 = false → t.l1p.op.map CohOp.reg = some .l1pinv) ∧
    (v.getLsbD 9 = true → v.getLsbD 8 = true → t.l1p.op = none ∧ t.l1p.lines = []) ∧
    (v.getLsbD 8 = true → t.l1d.op.map CohOp.reg = some .l1dinv) := by
  unfold State.l2cfgInvalidates bit
  refine ⟨fun h9 h8 => ?_, fun h9 h8 => ?_, fun h8 => ?_⟩
  · rw [h9, h8]
    exact congrArg (Option.map CohOp.reg) (startOp_opOf_self s.finishOps .l1pinv 0 0)
  · rw [h9, h8]
    let s1 := s.finishOps.startOp .l1pinv 0 0
    have hl1p : (s1.finishOps.startOp .l1dinv 0 0).l1p = s1.finishOps.l1p := drained_l1p s1.finishOps
    show (s1.finishOps.startOp .l1dinv 0 0).l1p.op = none ∧ (s1.finishOps.startOp .l1dinv 0 0).l1p.lines = []
    rw [hl1p]
    refine ⟨finishOps_opOf s1 .l1p, eq_nil_of_lineAt fun a b => ?_⟩
    exact (finished_global (finishOps_opOf s) (r := .l1pinv) rfl (x := .l1p) (by decide) a b).1 (by decide)
  · rw [h8]
    exact congrArg (Option.map CohOp.reg) (startOp_opOf_self _ .l1dinv 0 0)

/-- Settles O20: the invalidates, the freeze bit, the lines written out, the mode and the power-down, then the RAM that
forgets. -/
theorem l2ModeChange : Obligations.L2ModeChange := by
  intro s v h s1 s2 s3 u down stays
  have hs2 : s2 = s.l2cfgInvalidates v := rfl
  let w := s2.setL2 { s2.l2 with cc := v.getLsbD 3 }
  have hw : s3 = w.drainVictim.finishOut := rfl
  have hmode : s2.l2.mode = s.l2.mode := congrArg Supervised.l2Mode (quiet_l2cfgInvalidates s v).sup
  obtain ⟨hplat2, hpdc2⟩ := l2cfgInvalidates_power s v
  have hplat3 : s3.plat = s.plat := (l2m_finishOut _).plat.trans ((drainVictim_power w).1.trans hplat2)
  have hpdc3 : s3.pdc = s.pdc := (l2m_finishOut _).pdc.trans ((drainVictim_power w).2.trans hpdc2)
  obtain ⟨hplatu, hpdcu⟩ := foldl_power (fun t l => t.treatL2 .wbinv l) (fun t l => treatL2_power t .wbinv l) s3.l2.lines s3
  obtain ⟨hl1p, hl1d, -, hcc⟩ := flushL2_fold s3.l2.lines s3
  have hcc3 : s3.l2.cc = v.getLsbD 3 := by
    obtain ⟨_, _, _, _, e⟩ := (l2m_drainVictim w).l2
    rw [hw, finishOut_l2, e]; rfl
  have hl1p3 : s3.l1p = s2.l1p := drained_l1p w
  have hl1d3 : s3.l1d = { s2.l1d with victim := none } := drained_l1d w
  let x := (u.setL2 { u.l2 with mode := v.setWidth 3, lines := [] }).setAsleep .l2
  let r1 := s.plat.l2.cacheSpan s.l2Size
  let r2 := s.plat.l2.cacheSpan (s.plat.l2.cacheSize (v.setWidth 3))
  let t := ((x.forget r1).forget r2).setReply .none
  have ht : s.writeL2cfg v = (x.forget r1).forget r2 := by
    show (x.forget (w.plat.l2.cacheSpan w.l2Size)).forget (w.plat.l2.cacheSpan (w.plat.l2.cacheSize (v.setWidth 3))) = _
    rw [show w.plat = s.plat from hplat2, show w.l2Size = s.l2Size by
      show s2.plat.l2.cacheSize s2.l2.mode = _
      rw [hmode, show s2.plat = s.plat from hplat2]; rfl]
  have hframe0 : t = { x with mem := t.mem, free := t.free, reply := .none } := by
    exact congrArg (fun y => y.setReply .none) (forget_forget_eq x r1 r2)
  have hpower : x.pdc = { s.pdc with l2Asleep := down } := by
    show { u.pdc with l2Asleep := u.pdc.mmAsleep || decide (u.plat.l2.cacheSize (v.setWidth 3) = 0) } = _
    rw [hpdcu, hplatu, hpdc3, hplat3]
  have htl2 : t.l2 = { u.l2 with mode := v.setWidth 3, lines := [] } := by rw [hframe0]; rfl
  have htl1p : t.l1p = s2.l1p := by rw [hframe0]; exact hl1p.trans hl1p3
  have htl1d : t.l1d = { s2.l1d with victim := none } := by rw [hframe0]; exact hl1d.trans hl1d3
  have hframe : t = { u with l2 := t.l2, pdc := { s.pdc with l2Asleep := down }, mem := t.mem, free := t.free, reply := .none } := by
    rw [← hpower, htl2]; exact hframe0
  have hread : ∀ a, stays a = true → t.mem.read a = u.mem.read a := by
    intro a ha
    obtain ⟨h1, h2⟩ := Bool.and_eq_true_iff.1 ha
    rw [Bool.not_eq_true'] at h1 h2
    show ((x.forget r1).forget r2).mem.read a = u.mem.read a
    rw [forget_read_kept _ r2 a (.inl h2), forget_read_kept x r1 a (.inl h1)]; rfl
  obtain ⟨hp, hboth, hd⟩ := l2cfgInvalidates_spec s v
  refine ⟨t, ?_, by rw [htl2], by rw [htl2]; exact hcc.trans hcc3, by rw [htl2], fun h9 h8 => by rw [htl1p]; exact hp h9 h8,
    fun h9 h8 => by rw [htl1p]; exact hboth h9 h8, fun h8 => by rw [htl1d]; exact hd h8, hframe, hread,
    fun h9 h8 hv hout hclean => ?_⟩
  · show (if s.mayWrite then (s.writeL2cfg v).done else _) = _
    rw [if_pos h, ht]; rfl
  · have e2 : s2 = s := by
      show (if v.getLsbD 8 then _ else if v.getLsbD 9 then _ else s) = s
      rw [h8, h9]; rfl
    have e3 : s3 = s.setL2 { s.l2 with cc := v.getLsbD 3 } := by
      have hv' : (s.setL2 { s.l2 with cc := v.getLsbD 3 }).l1d.victim = none := hv
      have hout' : (s.setL2 { s.l2 with cc := v.getLsbD 3 }).l2.out = none := hout
      rw [hw]
      show (s2.setL2 { s2.l2 with cc := v.getLsbD 3 }).drainVictim.finishOut = _
      rw [e2, drainVictim_of_none hv', finishOut_of_none hout']
    have hu : u = { s3 with l2 := { s3.l2 with lines := u.l2.lines } } :=
      flush2_clean s3.l2.lines s3 (by rw [e3]; exact hclean)
    have hus : u = { s with l2 := { s.l2 with cc := v.getLsbD 3, lines := u.l2.lines } } := hu.trans (by rw [e3]; rfl)
    have hmem : u.mem = s.mem := by rw [hus]
    refine ⟨hframe0.trans ?_, fun a ha => by rw [hread a ha, hmem]⟩
    have hl2 : x.l2 = { s.l2 with mode := v.setWidth 3, cc := v.getLsbD 3, lines := [] } := by
      show { u.l2 with mode := v.setWidth 3, lines := [] } = _
      rw [hus]
    rw [← hpower, ← hl2]
    have hxu : x = { u with l2 := x.l2, pdc := x.pdc } := rfl
    rw [hxu, hus]

/-! ### Writes of the coherence registers -/

/-- Settles O21: a write of a global operation register, with and without the privilege check. -/
theorem globalOperationWrites : Obligations.GlobalOperationWrites := by
  intro s v
  constructor
  · simp only [List.mem_cons, Prod.mk.injEq, List.not_mem_nil, or_false]
    rintro i r (⟨rfl, rfl⟩ | ⟨rfl, rfl⟩ | ⟨rfl, rfl⟩ | ⟨rfl, rfl⟩ | ⟨rfl, rfl⟩) <;> rfl
  · intro h
    simp only [List.mem_cons, Prod.mk.injEq, List.not_mem_nil, or_false]
    rintro i r (⟨rfl, rfl⟩ | ⟨rfl, rfl⟩) <;> exact if_pos h

/-- Settles O22: the write is the same for each base address register. -/
theorem baseAddressWrites : Obligations.BaseAddressWrites := by
  intro s v i r h
  simp only [List.mem_cons, Prod.mk.injEq, List.not_mem_nil, or_false] at h
  rcases h with ⟨rfl, rfl⟩ | ⟨rfl, rfl⟩ | ⟨rfl, rfl⟩ | ⟨rfl, rfl⟩ | ⟨rfl, rfl⟩ | ⟨rfl, rfl⟩ | ⟨rfl, rfl⟩ <;>
    exact ⟨_, rfl, rfl, rfl, rfl, fun x => by cases x <;> rfl⟩

/-- The count a write asks for. -/
theorem blockWords_eq (r : CohReg) (v : Word) :
    blockWords r v = if cohBlock r = .l2 ∧ 0xFFE0 < v.toNat % 0x10000 then 0 else v.toNat % 0x10000 := by
  unfold blockWords field
  rw [Nat.pow_zero, Nat.div_one]; rfl

theorem blockWords_lt (r : CohReg) (v : Word) : blockWords r v < 0x10000 := by
  rw [blockWords_eq]
  split
  · decide
  · exact Nat.mod_lt _ (by decide)

/-- A write of a word count register, by the count and the base register. -/
theorem writeCount_cases (s : State) (r : CohReg) (v : Word) : let n := blockWords r v
    let u := s.finishOps
    (n = 0 → s.writeCount r v = .ok u) ∧
    (n ≠ 0 → (u.barOf r).fresh = true → (u.barOf r).value.toNat + 4 * n ≤ 0x100000000 →
      s.writeCount r v = .ok ((u.setBar r { value := (u.barOf r).value, fresh := false }).startOp r (u.barOf r).value.toNat n)) ∧
    (n ≠ 0 → (u.barOf r).fresh = true → 0x100000000 < (u.barOf r).value.toNat + 4 * n →
      s.writeCount r v = .error (.fault (.pastTopOfMemory (u.barOf r).value.toNat))) ∧
    (n ≠ 0 → (u.barOf r).fresh = false →
      ∃ b, b + 4 * n ≤ 0x100000000 ∧ s.writeCount r v = .ok (u.spend.startOp r b n)) := by
  intro n u
  unfold State.writeCount State.startBlock topOfMemory
  dsimp only
  refine ⟨fun h => if_pos h, fun h hf hle => ?_, fun h hf hlt => ?_, fun h hf => ?_⟩
  · rw [if_neg h, hf, if_pos rfl, if_neg (Nat.not_lt.2 hle)]
  · rw [if_neg h, hf, if_pos rfl, if_pos hlt]
  · rw [if_neg h, hf, if_neg Bool.false_ne_true]
    refine ⟨_, ?_, rfl⟩
    have : n < 0x10000 := blockWords_lt r v
    unfold clampBase topOfMemory
    omega

/-- Settles O23: the command is the write of its count, for each of the registers. -/
theorem wordCountWrites : Obligations.WordCountWrites := by
  intro s v i r hi n u base
  have hexec : exec i s = outcome ((s.writeCount r v).map fun t => t.setReply .none) := by
    simp only [List.mem_cons, Prod.mk.injEq, List.not_mem_nil, or_false] at hi
    rcases hi with ⟨rfl, rfl⟩ | ⟨rfl, rfl⟩ | ⟨rfl, rfl⟩ | ⟨rfl, rfl⟩ | ⟨rfl, rfl⟩ | ⟨rfl, rfl⟩ | ⟨rfl, rfl⟩ <;> rfl
  have hn : blockWords r v = n := blockWords_eq r v
  obtain ⟨hzero, hok, hpast, hstale⟩ := writeCount_cases s r v
  rw [hn] at hzero hok hpast hstale
  refine ⟨fun h => ?_, fun h hf hle => ?_, fun h hf hlt => ?_, fun h hf => ?_⟩
  · rw [hexec, hzero h]; rfl
  · rw [hexec, hok h hf hle]; rfl
  · rw [hexec, hpast h hf hlt]; rfl
  · obtain ⟨b, hb, e⟩ := hstale h hf
    exact ⟨b, hb, by rw [hexec, e]; rfl⟩

end Sys2Proof.Proofs.CacheControl

/-!
PROOFS. What L2 does for an access that reaches it: transactions on the ports, the line on its way out, service of reads and
writes, and the power-down pages (spec/42_l2.md sections 2, 4 and 8; spec/20_memory.md R111, R112).
-/
namespace Sys2Proof.Proofs.L2Service
open Sys2Proof Sys2Proof.Machine Sys2Proof.Proofs.LineBytes

/-! ### Transactions -/

theorem raise_setEmc (s : State) (m : Emc) (e : Nat) :
    (s.setEmc m).raise e = { s with intc := ((s.setEmc m).raise e).intc, emc := m } := rfl

theorem busError_frame (s : State) (op : BusOp) (x : BitVec 4) (t : BitVec 3) :
    ∃ g m, s.busError op x t = { s with intc := g, emc := m } ∧ m.fills = s.emc.fills := by
  unfold State.busError
  split
  · have h := raise_setEmc s { s.emc with busErr := busErrValue op x t } 127
    exact ⟨_, _, h, rfl⟩
  · exact ⟨s.intc, s.emc, rfl, rfl⟩

/-- A transaction changes the interrupt controller and the ports only. -/
theorem transact_frame (s : State) (op : BusOp) (a n : Nat) (p : Priv) (id : Nat) :
    ∃ g m, (s.transact op a n p id).1 = { s with intc := g, emc := m } ∧ m.fills = s.emc.fills := by
  unfold State.transact
  dsimp only
  split
  · exact ⟨s.intc, _, rfl, rfl⟩
  · exact ⟨s.intc, _, rfl, rfl⟩
  · next xid stat t _ =>
    obtain ⟨g, m, e, hm⟩ := busError_frame (s.setEmc { s.emc with
      requests := s.emc.requests ++ [_], replies := t }) op xid stat
    exact ⟨g, m, e, hm⟩

theorem busRead_frame (s : State) (op : BusOp) (a n : Nat) (p : Priv) (id : Nat) :
    ∃ g m f, (s.busRead op a n p id).1 = { s with intc := g, emc := m, free := f } ∧ m.fills ⊆ s.emc.fills := by
  obtain ⟨g, m, e, hm⟩ := transact_frame s op a n p id
  unfold State.busRead
  generalize s.transact op a n p id = r at e ⊢
  obtain ⟨u, b⟩ := r
  dsimp only at e ⊢
  rw [e, ← hm]
  split
  · exact ⟨_, _, _, rfl, List.filter_subset_self _⟩
  · exact ⟨_, _, _, rfl, List.filter_subset_self _⟩

theorem busWrite_frame (s : State) (op : BusOp) (f n a : Nat) (bs : List (Option Byte)) (p : Priv) (id : Nat) :
    ∃ g m x M, s.busWrite op f n a bs p id = { s with intc := g, emc := m, free := x, mem := M } ∧ m.fills ⊆ s.emc.fills := by
  obtain ⟨g, m, e, hm⟩ := transact_frame s op f n p id
  unfold State.busWrite
  generalize s.transact op f n p id = r at e ⊢
  obtain ⟨u, b⟩ := r
  dsimp only at e ⊢
  rw [e, ← hm]
  split
  · exact ⟨_, _, _, _, rfl, List.filter_subset_self _⟩
  · split
    · exact ⟨_, _, _, _, rfl, List.filter_subset_self _⟩
    · exact ⟨_, _, _, _, rfl, List.Subset.refl _⟩

theorem finishOut_frame (s : State) : ∃ g m x M,
    s.finishOut = { s with intc := g, emc := m, free := x, mem := M, l2 := { s.l2 with out := none } } ∧ m.fills ⊆ s.emc.fills := by
  cases h : s.l2.out with
  | none =>
    rw [finishOut_of_none h]
    exact ⟨s.intc, s.emc, s.free, s.mem, by rw [← h], List.Subset.refl _⟩
  | some v =>
    rw [finishOut_of_some h]
    obtain ⟨g, m, x, M, e, hm⟩ := busWrite_frame (s.setL2 { s.l2 with out := none }) .mdmaWrite v.addr v.bytes.length v.addr
      v.bytes .supervisor s.plat.cpuId
    exact ⟨g, m, x, M, e, hm⟩

/-- A read of external memory: it reads after the evicted line has gone, and may drop units read ahead. -/
theorem extRead_frame (s : State) (k : AheadKind) (a n : Nat) (p : Priv) : ∃ g m x ws,
    (s.extRead k a n p).1 = { s with cpu := { s.cpu with ahead := ws }, intc := g, emc := m, free := x, mem := s.finishOut.mem
                                     l2 := { s.l2 with out := none } } ∧ ws ⊆ s.cpu.ahead ∧ m.fills ⊆ s.emc.fills := by
  obtain ⟨g, m, x, M, e, hm⟩ := finishOut_frame s
  obtain ⟨g', m', x', e', hm'⟩ := busRead_frame s.finishOut .mdmaRead a n p s.plat.cpuId
  have hmem : s.finishOut.mem = M := by rw [e]
  have hsub : m'.fills ⊆ s.emc.fills := fun w hw => hm (by have := hm' hw; rwa [e] at this)
  unfold State.extRead
  dsimp only
  rw [e', hmem, e]
  split
  · cases k
    · exact ⟨g', m', x', _, rfl, List.Subset.refl _, hsub⟩
    · exact ⟨g', m', x', _, rfl, List.Subset.refl _, hsub⟩
    · exact ⟨g', m', x', _, rfl, List.filter_subset_self _, hsub⟩
    · exact ⟨g', m', x', _, rfl, List.filter_subset_self _, hsub⟩
    · exact ⟨g', m', x', _, rfl, List.Subset.refl _, hsub⟩
  · exact ⟨g', m', x', _, rfl, List.Subset.refl _, hsub⟩
  · exact ⟨g', m', x', _, rfl, List.Subset.refl _, hsub⟩

/-! ### What an access served below keeps -/

/-- What service by L2 leaves as it was: L1, what was not read ahead, and the pages that are awake. -/
structure Served (s t : State) : Prop where
  plat : t.plat = s.plat
  l1p : t.l1p = s.l1p
  l1d : t.l1d = s.l1d
  ahead : ∀ k, s.aheadOf k = [] → t.aheadOf k = []
  sleep : ∀ q : Fin 4, t.l2.sleep[q] = true → s.l2.sleep[q] = true

theorem Served.refl (s : State) : Served s s := ⟨rfl, rfl, rfl, fun _ h => h, fun _ h => h⟩

theorem Served.trans {s t u : State} (h : Served s t) (k : Served t u) : Served s u :=
  ⟨k.plat.trans h.plat, k.l1p.trans h.l1p, k.l1d.trans h.l1d, fun x e => k.ahead x (h.ahead x e), fun q e => h.sleep q (k.sleep q e)⟩

theorem Served.ite {s t u : State} {c : Prop} [Decidable c] (h : Served s t) (k : Served s u) : Served s (if c then t else u) := by
  split <;> assumption

/-- Units read ahead only go. -/
theorem aheadOf_nil_of_subset {s t : State} (hc : t.cpu.ahead ⊆ s.cpu.ahead) (hf : t.emc.fills ⊆ s.emc.fills) (k : AheadKind)
    (h : s.aheadOf k = []) : t.aheadOf k = [] := by
  cases k with
  | load | fetch => exact List.subset_nil.1 (fun w hw => h ▸ hc hw)
  | loadFill | fetchFill | drainFill => exact List.subset_nil.1 (fun w hw => h ▸ hf hw)

theorem served_setL2 (s : State) (x : L2) (h : ∀ q : Fin 4, x.sleep[q] = true → s.l2.sleep[q] = true) : Served s (s.setL2 x) :=
  ⟨rfl, rfl, rfl, fun k e => by cases k <;> exact e, h⟩

theorem served_finishOut (s : State) : Served s s.finishOut := by
  obtain ⟨g, m, x, M, e, hm⟩ := finishOut_frame s
  rw [e]
  exact ⟨rfl, rfl, rfl, aheadOf_nil_of_subset (List.Subset.refl _) hm, fun _ h => h⟩

theorem served_extRead (s : State) (k : AheadKind) (a n : Nat) (p : Priv) : Served s (s.extRead k a n p).1 := by
  obtain ⟨g, m, x, ws, e, hw, hm⟩ := extRead_frame s k a n p
  rw [e]
  exact ⟨rfl, rfl, rfl, aheadOf_nil_of_subset hw hm, fun _ h => h⟩

theorem served_busWrite (s : State) (op : BusOp) (f n a : Nat) (bs : List (Option Byte)) (p : Priv) (id : Nat) :
    Served s (s.busWrite op f n a bs p id) := by
  obtain ⟨g, m, x, M, e, hm⟩ := busWrite_frame s op f n a bs p id
  rw [e]
  exact ⟨rfl, rfl, rfl, aheadOf_nil_of_subset (List.Subset.refl _) hm, fun _ h => h⟩

theorem served_recordFault (s : State) (x : Block) (o : Origin) (a : Nat) (p : Priv) (k : Kind) (id : Nat) :
    Served s (s.recordFault x o a p k id) := by
  obtain ⟨m1, m2, m3, g, e⟩ := recordFault_eq s x o a p k id
  rw [e]
  exact ⟨rfl, rfl, rfl, fun k h => by cases k <;> exact h, fun _ h => h⟩

theorem served_putMasked (s : State) (a : Nat) (bs : List (Option Byte)) : Served s (s.putMasked a bs) :=
  ⟨rfl, rfl, rfl, fun k h => by cases k <;> exact h, fun _ h => h⟩

/-! ### Power-down pages -/

/-- The pages after an access of `a`. -/
theorem wakePages_sleep (s : State) (a : Nat) (q : Fin 4) :
    (s.wakePages a).l2.sleep[q] = (s.l2.sleep[q] && !(s.plat.l2.pdPages[q]).has a) := by
  show (Vector.ofFn _)[q.val] = _
  rw [Vector.getElem_ofFn]

theorem served_wakePages (s : State) (a : Nat) : Served s (s.wakePages a) :=
  served_setL2 s _ fun q h => (Bool.and_eq_true_iff.1 ((wakePages_sleep s a q).symm.trans h)).1

/-- The page of the address is awake, and none has gone to sleep. -/
def Woken (s : State) (a : Nat) (t : State) : Prop :=
  ∀ q : Fin 4, t.l2.sleep[q] = true → s.l2.sleep[q] = true ∧ (s.plat.l2.pdPages[q]).has a = false

theorem woken_wakePages (s : State) (a : Nat) : Woken s a (s.wakePages a) := fun q h => by
  obtain ⟨h1, h2⟩ := Bool.and_eq_true_iff.1 ((wakePages_sleep s a q).symm.trans h)
  exact ⟨h1, by rwa [Bool.not_eq_true'] at h2⟩

theorem Woken.served {s t u : State} {a : Nat} (h : Woken s a t) (k : Served t u) : Woken s a u := fun q e => h q (k.sleep q e)

/-! ### The caches of L2 -/

theorem l2_touch_eq (c : L2) (set way : Nat) : ∃ r, c.touch set way = { c with lru := r } := by
  unfold L2.touch
  split
  · exact ⟨c.lru, rfl⟩
  · exact ⟨_, rfl⟩

theorem served_touch (s : State) (set way : Nat) : Served s (s.setL2 (s.l2.touch set way)) := by
  obtain ⟨r, e⟩ := l2_touch_eq s.l2 set way
  exact served_setL2 s _ fun q h => by rwa [e] at h

theorem served_dropFills (s : State) (hit : Nat → Bool) : Served s (s.dropFills hit) :=
  ⟨rfl, rfl, rfl, aheadOf_nil_of_subset (List.Subset.refl _) (List.filter_subset_self _), fun _ h => h⟩

theorem served_l2Evict (s : State) (a : Nat) : Served s (s.l2Evict a) := by
  unfold State.l2Evict
  split
  · exact ((served_finishOut s).trans (served_dropFills ..)).trans (served_setL2 _ _ fun _ h => h)
  · exact .refl s

theorem served_l2Allocate (s : State) (k : AheadKind) (a : Nat) (p : Priv) : Served s (s.l2Allocate k a p).1 := by
  refine ((served_l2Evict s a).trans (served_extRead ..)).trans (served_setL2 _ _ fun q h => ?_)
  obtain ⟨r, e⟩ := l2_touch_eq { ((s.l2Evict a).extRead k (a / 128 * 128) 128 p).1.l2 with lines := putLine _ _ } _ _
  rwa [e] at h

theorem served_l2Read (s : State) (k : AheadKind) (a n : Nat) (p : Priv) : Served s (s.l2Read k a n p).1 := by
  unfold State.l2Read
  split
  · exact served_wakePages s a
  · split
    · exact served_touch ..
    · split
      · exact served_l2Allocate ..
      · exact served_extRead ..

theorem served_l2Probe (s : State) (a n : Nat) (p : Priv) : Served s (s.l2Probe a n p) :=
  .ite (served_wakePages s a) (.ite (.refl s) (.ite (served_extRead ..) (served_extRead ..)))

theorem served_l2Merge (s : State) (l : Line) (o : Nat) (bs : List (Option Byte)) : Served s (s.l2Merge l o bs) :=
  served_setL2 s _ fun _ h => h

theorem served_l2Write (s : State) (e : WbEntry) : Served s (s.l2Write e) := by
  unfold State.l2Write
  dsimp only
  refine .ite (.ite ((served_wakePages ..).trans (served_putMasked ..)) ((served_wakePages ..).trans (served_recordFault ..))) ?_
  split
  · exact .refl s
  · exact served_busWrite ..
  · split
    · exact .ite ((served_l2Merge ..).trans (served_touch ..)) (served_recordFault ..)
    · exact .ite (.ite ((served_l2Allocate ..).trans (served_l2Merge ..)) (served_recordFault ..))
        ((served_finishOut s).trans (served_busWrite ..))

theorem served_l2WriteVictim (s : State) (v : Victim) : Served s (s.l2WriteVictim v) := by
  unfold State.l2WriteVictim State.l2Take
  refine .ite ((served_wakePages ..).trans (served_putMasked ..)) (.ite (.refl s) ?_)
  split
  · exact served_l2Merge ..
  · exact (served_finishOut s).trans (served_busWrite ..)

/-! ### Service of a read, by where L2 finds it -/

theorem l2Read_ram {s : State} {a : Nat} (h : s.inL2Ram a = true) (k : AheadKind) (n : Nat) (p : Priv) :
    s.l2Read k a n p = (s.wakePages a, s.mem.readBytes a n) := if_pos h

section
variable {s : State} {a : Nat} (h : s.inL2Ram a = false)
include h

theorem l2Read_hit {l : Line} (hl : s.l2Lookup a = some l) (k : AheadKind) (n : Nat) (p : Priv) :
    s.l2Read k a n p = (s.setL2 (s.l2.touch l.set l.way), slice l.data (a % 128) n) := by
  unfold State.l2Read
  rw [if_neg (ne_true_of_eq_false h), hl]

theorem l2Read_allocate (hl : s.l2Lookup a = none) (hm : s.mayAllocateL2 a = true) (k : AheadKind) (n : Nat) (p : Priv) :
    s.l2Read k a n p = ((s.l2Allocate k a p).1, slice (s.l2Allocate k a p).2.data (a % 128) n) := by
  unfold State.l2Read
  rw [if_neg (ne_true_of_eq_false h), hl, hm]; rfl

theorem l2Read_external (hl : s.l2Lookup a = none) (hm : s.mayAllocateL2 a = false) (k : AheadKind) (n : Nat) (p : Priv) :
    s.l2Read k a n p = s.extRead k a n p := by
  unfold State.l2Read
  rw [if_neg (ne_true_of_eq_false h), hl, hm]; rfl

end

/-! ### Reads of external memory -/

/-- A read that succeeds and that has read nothing ahead delivers memory's bytes, after the evicted line has gone. -/
theorem extRead_ok {s : State} {k : AheadKind} (a n : Nat) (p : Priv) (hk : s.aheadOf k = [])
    (h : s.finishOut.emc.replies.head? ∈ [none, some .ok]) : (s.extRead k a n p).2 = s.finishOut.mem.readBytes a n := by
  obtain ⟨m, e⟩ := Sys2Proof.Proofs.Idma.busRead_ok s.finishOut .mdmaRead a n p s.plat.cpuId h
  have hn : s.finishOut.aheadOf k = [] := (served_finishOut s).ahead k hk
  have ht : s.finishOut.torn (severalSteps a n) k a (s.finishOut.mem.readBytes a n) = s.finishOut.mem.readBytes a n := by
    unfold State.torn
    rw [tear_nil hn, ite_self]
  unfold State.extRead
  dsimp only
  rw [e]
  split
  · rfl
  · exact ht
  · exact ht

/-- A failed read delivers unspecified bytes. -/
theorem extRead_failed {s : State} {x : BitVec 4} {stat : BitVec 3} {rest : List BusReply} (k : AheadKind) (a n : Nat) (p : Priv)
    (h : s.finishOut.emc.replies = .error x stat :: rest) : (s.extRead k a n p).2 = freeBytes s.finishOut.free n := by
  have hfree : ∀ u : State, (u.busError .mdmaRead x stat).free = u.free := fun u => by
    unfold State.busError; split <;> rfl
  unfold State.extRead State.busRead State.transact
  dsimp only
  rw [h]
  exact congrArg (fun f => freeBytes f n) (hfree _)

end Sys2Proof.Proofs.L2Service

/-!
PROOFS. Program fetch: a permitted packet and a refused one (spec/40_l1p.md R177, R182, R206; spec/42_l2.md R300, R336, R343;
spec/60_exceptions.md R530).
-/
namespace Sys2Proof.Proofs.Fetch
open Sys2Proof Sys2Proof.Machine Sys2Proof.Proofs.L2Service

/-! ### The execute check -/

/-- The bit of the execute check. -/
def executeBit (p : Priv) : Nat := if p = .supervisor then 3 else 0

theorem fetchAllowed_iff (s : State) (perm : BitVec 16) :
    s.fetchAllowed perm = true ↔ s.plat.hasMp = false ∨ perm.getLsbD (executeBit s.cpu.priv) = true := by
  unfold State.fetchAllowed mayExecute executeBit typeBit
  cases s.cpu.priv with
  | supervisor => simp
  | user => simp

theorem fetchAllowed_eq_false {s : State} {perm : BitVec 16} (hmp : s.plat.hasMp = true)
    (h : perm.getLsbD (executeBit s.cpu.priv) = false) : s.fetchAllowed perm = false := by
  rw [Bool.eq_false_iff, Ne, fetchAllowed_iff, hmp, h]
  simp

/-- A refused fetch answers that, and flags an internal exception if exceptions are enabled. -/
theorem fetchPermissionFault_eq (s : State) (b : Nat) : s.fetchPermissionFault b = { s with
    cpu := { s.cpu with efr := { s.cpu.efr with internal := s.cpu.efr.internal || s.cpu.gee } }, reply := .fetchRefused b } := by
  unfold State.fetchPermissionFault
  cases h : s.cpu.gee with
  | true => rw [Bool.or_true]; rfl
  | false => rw [Bool.or_false]; rfl

theorem fetchPermissionFault_l1p (s : State) (b : Nat) : (s.fetchPermissionFault b).l1p = s.l1p := by
  rw [fetchPermissionFault_eq]

/-! ### What waking a page leaves as it was -/

theorem wakeForCpu_l1p (s : State) (a : Nat) : (s.wakeForCpu a).l1p = s.l1p := by
  obtain ⟨w, e, -⟩ := wakeForCpu_eq s a
  rw [e]; rfl

theorem wakeForCpu_plat (s : State) (a : Nat) : (s.wakeForCpu a).plat = s.plat := by
  obtain ⟨w, e, -⟩ := wakeForCpu_eq s a
  rw [e]; rfl

theorem wakeForCpu_cpu (s : State) (a : Nat) : (s.wakeForCpu a).cpu = s.cpu := by
  obtain ⟨w, e, -⟩ := wakeForCpu_eq s a
  rw [e]; rfl

theorem l1pSets_congr {s t : State} (hp : t.plat = s.plat) (hl : t.l1p = s.l1p) : t.l1pSets = s.l1pSets := by
  unfold State.l1pSets State.l1pSize
  rw [hp, hl]

theorem l1pLookup_congr {s t : State} (hp : t.plat = s.plat) (hl : t.l1p = s.l1p) (a : Nat) :
    t.l1pLookup a = s.l1pLookup a := by
  unfold State.l1pLookup
  rw [l1pSets_congr hp hl, hl]

theorem wakeForCpu_l1pLookup (s : State) (a b : Nat) : (s.wakeForCpu a).l1pLookup b = s.l1pLookup b :=
  l1pLookup_congr (wakeForCpu_plat s a) (wakeForCpu_l1p s a) b

theorem wakeForCpu_l2Perm (s : State) (a b : Nat) : (s.wakeForCpu a).l2Perm b = s.l2Perm b := by
  obtain ⟨w, e, -⟩ := wakeForCpu_eq s a
  rw [e]; rfl

/-! ### The fill of a miss -/

/-- A frozen or disabled cache keeps its lines. -/
theorem l1pFill_kept {s : State} (a : Nat) (h : s.l1p.oper = true ∨ s.l1pSets = 0) : s.l1pFill a =
    ((s.l2Read .fetchFill a 32 s.cpu.priv).1, (s.l2Read .fetchFill a 32 s.cpu.priv).1.tear .fetch a
      (s.l2Read .fetchFill a 32 s.cpu.priv).2) := by
  unfold State.l1pFill
  dsimp only
  rw [if_neg]
  rcases h with h | h
  · rw [h]; simp
  · rw [h]; simp

/-- The line a miss fills. -/
def filledLine (s : State) (a : Nat) (data : List Byte) : Line :=
  { set := Machine.setOf .l1p s.l1pSets a, way := 0, tag := tagOf .l1p s.l1pSets a, dirty := false, data := data
    perm := s.l2Perm a }

theorem l1pFill_filled {s : State} (a : Nat) (h : s.l1p.oper = false) (hs : s.l1pSets ≠ 0) :
    let r := s.l2Read .fetchFill a 32 s.cpu.priv
    let d := r.1.tear .fetch a r.2
    s.l1pFill a = (r.1.setL1p { s.l1p with lines := putLine s.l1p.lines (filledLine s a d) }, d) := by
  intro r d
  have hl1p : r.1.l1p = s.l1p := l2Read_l1p ..
  unfold State.l1pFill
  dsimp only
  rw [if_pos (by rw [h]; simpa using hs), ← hl1p]
  rfl

theorem lookup_filledLine {s t : State} (a : Nat) (d : List Byte) (ls : List Line) (hs : s.l1pSets ≠ 0)
    (ht : t.l1pSets = s.l1pSets) (hl : t.l1p.lines = putLine ls (filledLine s a d)) :
    t.l1pLookup a = some (filledLine s a d) := by
  unfold State.l1pLookup
  rw [ht, if_neg hs, hl]
  unfold findLine putLine
  rw [List.find?_cons_of_pos]
  simp [filledLine]

/-! ### A fetch by region -/

section
variable {s : State} {a : Nat} (ha : a < 0x100000000)
include ha

theorem packet_below_top : ¬topOfMemory ≤ a / 32 * 32 := by unfold topOfMemory; omega

theorem fetchPacket_l1pRam (h : s.region (a / 32 * 32) = .l1pRam) : s.fetchPacket a =
    .ok (if s.fetchAllowed (entryOf s.l1p.mppa (s.plat.l1p.page (a / 32 * 32))) then
        s.setReply (.packet (s.tear .fetch (a / 32 * 32) (s.mem.readBytes (a / 32 * 32) 32)))
      else s.fetchPermissionFault (a / 32 * 32)) := by
  unfold State.fetchPacket
  dsimp only
  rw [if_neg (packet_below_top ha), h]
  dsimp only
  split <;> rfl

variable (h : s.region (a / 32 * 32) = .l2Ram ∨ s.region (a / 32 * 32) = .external)
include h

theorem fetchPacket_hit {l : Line} (hl : s.l1pLookup (a / 32 * 32) = some l) : s.fetchPacket a =
    .ok (if s.fetchAllowed l.perm then (s.wakeForCpu (a / 32 * 32)).setReply (.packet l.data)
      else (s.wakeForCpu (a / 32 * 32)).fetchPermissionFault (a / 32 * 32)) := by
  have hw : (s.wakeForCpu (a / 32 * 32)).l1pLookup (a / 32 * 32) = some l := (wakeForCpu_l1pLookup s ..).trans hl
  unfold State.fetchPacket
  dsimp only
  rw [if_neg (packet_below_top ha), hw]
  rcases h with h | h
  · rw [h]; dsimp only; split <;> rfl
  · rw [h]; dsimp only; split <;> rfl

theorem fetchPacket_miss (hl : s.l1pLookup (a / 32 * 32) = none) : s.fetchPacket a =
    .ok (if s.fetchAllowed (s.l2Perm (a / 32 * 32)) then
        ((s.wakeForCpu (a / 32 * 32)).l1pFill (a / 32 * 32)).1.setReply
          (.packet ((s.wakeForCpu (a / 32 * 32)).l1pFill (a / 32 * 32)).2)
      else ((s.wakeForCpu (a / 32 * 32)).l1pFill (a / 32 * 32)).1.fetchPermissionFault (a / 32 * 32)) := by
  have hw : (s.wakeForCpu (a / 32 * 32)).l1pLookup (a / 32 * 32) = none := (wakeForCpu_l1pLookup s ..).trans hl
  unfold State.fetchPacket
  dsimp only
  rw [if_neg (packet_below_top ha), hw]
  rcases h with h | h
  · rw [h]; dsimp only; split <;> rfl
  · rw [h]; dsimp only; split <;> rfl

end

/-- A frozen cache keeps its lines. -/
theorem fetchPacket_frozen {s t : State} {a : Nat} (hf : s.l1p.oper = true) (h : s.fetchPacket a = .ok t) : t.l1p = s.l1p := by
  have hw := wakeForCpu_l1p s (a / 32 * 32)
  have hfill : ((s.wakeForCpu (a / 32 * 32)).l1pFill (a / 32 * 32)).1.l1p = s.l1p := by
    rw [l1pFill_kept _ (.inl (by rw [hw]; exact hf))]
    exact (l2Read_l1p ..).trans hw
  unfold State.fetchPacket at h
  dsimp only at h
  split at h
  · cases h
  · split at h
    · split at h
      · cases h; rfl
      · cases h; exact fetchPermissionFault_l1p ..
    iterate 2
      split at h
      · split at h
        · cases h; exact hw
        · cases h; exact (fetchPermissionFault_l1p ..).trans hw
      · split at h
        · cases h; exact hfill
        · cases h; exact (fetchPermissionFault_l1p ..).trans hfill
    all_goals cases h

/-- Settles O28: by the region of the packet, a hit and a miss. -/
theorem permittedFetchDeliversItsPacket : Obligations.PermittedFetchDeliversItsPacket := by
  intro s a ha b mode ok
  have hok : ∀ perm, ok perm → s.fetchAllowed perm = true := fun perm h => (fetchAllowed_iff s perm).2 h
  refine ⟨fun hr h => ?_, fun hf t h => fetchPacket_frozen hf h, fun hr => ?_, fun hn bs => tear_nil (s := s) (k := .fetch) hn b bs, fun hr => ?_,
    fun hr => ⟨fun l hl => ?_, fun hl hm hf hrep => ?_⟩⟩
  · rw [fetchPacket_l1pRam ha hr, if_pos (hok _ h)]; rfl
  · intro w
    refine ⟨fun l hl h => ?_, fun hl h => ?_⟩
    · rw [fetchPacket_hit ha hr hl, if_pos (hok _ h)]; rfl
    · intro r packet line
      have hw1 : w.l1p = s.l1p := wakeForCpu_l1p s b
      have hws : w.l1pSets = s.l1pSets := l1pSets_congr (wakeForCpu_plat s b) hw1
      have hwp : w.cpu.priv = s.cpu.priv := congrArg Cpu.priv (wakeForCpu_cpu s b)
      have hfetch : s.fetchPacket a = .ok ((w.l1pFill b).1.setReply (.packet (w.l1pFill b).2)) := by
        rw [fetchPacket_miss ha hr hl, if_pos (hok _ h)]; rfl
      have hserved : Served w r.1 := served_l2Read ..
      refine ⟨fun hn => ?_, (l2Read_l1p ..).trans hw1, fun hk => ?_, fun ho hs => ?_⟩
      · exact tear_nil (hserved.ahead .fetch ((congrArg Cpu.ahead (wakeForCpu_cpu s b)).trans hn)) b r.2
      · rw [hfetch, l1pFill_kept b (by rw [hw1, hws]; exact hk), hwp]; rfl
      · have hline : filledLine w b packet = line := by
          unfold filledLine
          rw [hws, show w.l2Perm b = s.l2Perm b from wakeForCpu_l2Perm s b b]
        have hfill : w.l1pFill b = (r.1.setL1p { s.l1p with lines := putLine s.l1p.lines line }, packet) := by
          have e := l1pFill_filled b (s := w) (by rw [hw1]; exact ho) (by rw [hws]; exact hs)
          rw [hwp, hw1] at e
          exact e.trans (by rw [← hline])
        have hrs : r.1.plat = s.plat := hserved.plat.trans (wakeForCpu_plat s b)
        let t := (r.1.setL1p { s.l1p with lines := putLine s.l1p.lines line }).setReply (.packet packet)
        have hts : t.l1pSets = w.l1pSets := by
          rw [hws]
          show setsOf .l1p (r.1.plat.l1p.cacheSize s.l1p.mode) = setsOf .l1p (s.plat.l1p.cacheSize s.l1p.mode)
          rw [hrs]
        refine ⟨t, hfetch.trans (congrArg (fun x : State × List Byte => Except.ok (x.1.setReply (.packet x.2))) hfill), rfl, ?_⟩
        rw [← hline]
        exact lookup_filledLine b packet s.l1p.lines (by rw [hws]; exact hs) hts (by rw [hline]; rfl)
  · exact l2Read_ram hr .fetchFill 32 s.cpu.priv
  · exact l2Read_hit hr hl .fetchFill 32 s.cpu.priv
  · rw [l2Read_external hr hl hm]
    exact extRead_ok b 32 s.cpu.priv hf hrep

/-- Settles O45: by the region of the packet, a hit and a miss. -/
theorem refusedFetchDeliversNoPacket : Obligations.RefusedFetchDeliversNoPacket := by
  intro s a ha hmp b mode refused
  have hno : ∀ perm : BitVec 16, perm.getLsbD mode = false → ¬s.fetchAllowed perm = true := fun perm h =>
    ne_true_of_eq_false (fetchAllowed_eq_false hmp h)
  refine ⟨fun hr h => ?_, fun hr => ⟨fun l hl h => ?_, fun hl h => ?_⟩⟩
  · rw [fetchPacket_l1pRam ha hr, if_neg (hno _ h), fetchPermissionFault_eq]
  · rw [fetchPacket_hit ha hr hl, if_neg (hno _ h), fetchPermissionFault_eq]; rfl
  · rw [fetchPacket_miss ha hr hl, if_neg (hno _ h), fetchPermissionFault_eq]; rfl

end Sys2Proof.Proofs.Fetch

/-!
PROOFS. CPU loads and stores in L1D RAM, one aligned unit and one quad-word at a time (spec/20_memory.md R108, R114;
spec/41_l1d.md R256).
-/
namespace Sys2Proof.Proofs.L1dRam
open Sys2Proof Sys2Proof.Machine Sys2Proof.Proofs.Dma Sys2Proof.Proofs.Frames

/-! ### One piece -/

theorem storePiece_l1dRam {s : State} {a : Nat} (h : s.region a = .l1dRam) (bs : List Byte) (more : Bool) :
    s.storePiece a bs more =
      .ok (if s.allows (entryOf s.l1d.mppa (s.plat.l1d.page a)) s.plat.cpuId s.cpu.priv .write true then s.putBytes a bs
        else s.recordFault .l1d .local a s.cpu.priv .write s.plat.cpuId) := by
  unfold State.storePiece
  rw [h]
  exact (apply_ite Except.ok _ _ _).symm

theorem storeNext_l1dRam {s : State} {a : Nat} (h : s.region a = .l1dRam)
    (hp : s.allows (entryOf s.l1d.mppa (s.plat.l1d.page a)) s.plat.cpuId s.cpu.priv .write true = true) (bs : List Byte)
    (more : Bool) : s.storeNext a bs more = .ok ((s.putBytes a (bs.take (unitLen a bs.length))).setRest
      (if unitLen a bs.length < bs.length then some (.store (a + unitLen a bs.length) (bs.drop (unitLen a bs.length))) else none)) := by
  unfold State.storeNext
  dsimp only
  rw [storePiece_l1dRam h, if_pos hp]; rfl

/-- What one piece of a load, in which nothing was read ahead, delivers. -/
theorem loadPiece_l1dRam {s : State} {a : Nat} (h : s.region a = .l1dRam)
    (hp : s.allows (entryOf s.l1d.mppa (s.plat.l1d.page a)) s.plat.cpuId s.cpu.priv .read true = true) (n : Nat) {multi : Bool}
    (hm : multi = false ∨ s.cpu.ahead = []) : s.loadPiece a n multi = .ok (s, s.mem.readBytes a n) := by
  have ht : s.torn multi .load a (s.mem.readBytes a n) = s.mem.readBytes a n := by
    unfold State.torn
    rcases hm with hm | hm
    · rw [hm]; rfl
    · rw [tear_nil (s := s) (k := .load) hm, ite_self]
  unfold State.loadPiece
  rw [h]
  dsimp only
  rw [if_pos hp, ht]

theorem loadNext_l1dRam {s : State} {a n : Nat} (h : s.region a = .l1dRam)
    (hp : s.allows (entryOf s.l1d.mppa (s.plat.l1d.page a)) s.plat.cpuId s.cpu.priv .read true = true)
    (hm : severalSteps a (firstPiece a n) = false ∨ s.cpu.ahead = []) (got : List Byte) : s.loadNext a n got =
      .ok (if firstPiece a n < n then
          (s.setRest (some (.load (a + firstPiece a n) (n - firstPiece a n) (got ++ s.mem.readBytes a (firstPiece a n))))).setReply .none
        else (s.setRest none).setReply (.data (got ++ s.mem.readBytes a (firstPiece a n)))) := by
  unfold State.loadNext
  dsimp only
  rw [loadPiece_l1dRam h hp _ hm]; rfl

/-! ### The whole access -/

theorem cpuLoad_ram {s : State} {a w : Nat} (h : s.region a = .l1dRam) (hs : s.accessStop a w = none) :
    cpuLoad a w s = outcome (s.loadNext a w []) := by
  unfold cpuLoad State.loadBytes
  rw [registerAt_ram (by rw [h]; decide), hs]

theorem cpuStore_ram {s : State} {a w : Nat} (h : s.region a = .l1dRam) (hs : s.accessStop a w = none) (v : BitVec 64) :
    cpuStore a w v s = outcome ((s.storeNext a (bytesOf s.plat.endian v.toNat w) false).map fun t => t.setReply .none) := by
  unfold cpuStore State.storeBytes
  rw [registerAt_ram (by rw [h]; decide), bytesOf_length, hs]

theorem accessStop_congr {s t : State} (h : ∀ a, t.region a = s.region a) (a n : Nat) : t.accessStop a n = s.accessStop a n := by
  unfold State.accessStop State.touchesRegisters
  simp only [h]

theorem width_of_accessStop {s : State} {a w : Nat} (h : s.accessStop a w = none) : w = 1 ∨ w = 2 ∨ w = 4 ∨ w = 8 := by
  have hw : cpuWidth w = true := by
    unfold State.accessStop at h
    cases hc : cpuWidth w with
    | true => rfl
    | false => rw [hc] at h; cases h
  simpa [cpuWidth, or_assoc] using hw

/-- An access that is one unit lies inside one quad-word. -/
theorem firstPiece_of_unit {a n : Nat} (h : unitLen a n = n) : firstPiece a n = n := by
  have hs := (severalSteps_false a n).1 (by unfold severalSteps; rw [h]; simp)
  unfold firstPiece
  omega

/-- Settles O48: the unit stored, the next one, and the pieces loaded. -/
theorem l1dStoreThenLoad : Obligations.L1dStoreThenLoad := by
  intro s a width v hw bytes
  have hlen : bytes.length = width := bytesOf_length ..
  refine ⟨fun hr hs hp => ?store, fun bs hrest hr hp => ?storeMore, fun hr hs ha hp => ?load, fun n got hrest hr hn ha hp => ?loadMore⟩
  case store =>
    intro k
    have hk : unitLen a bytes.length = k := by
      rw [hlen]
      exact unitLen_of_ne a width (by have := width_of_accessStop hs; omega)
    have hkw : k ≤ bytes.length := hk ▸ unitLen_le ..
    let t := ((s.putBytes a (bytes.take k)).setRest (if k < width then some (.store (a + k) (bytes.drop k)) else none)).setReply .none
    obtain ⟨hin, hout⟩ := putUnit_bytes hw a bytes k hkw
    refine ⟨t, ?_, rfl, hin, hout, fun hkeq hrom hread => ?_⟩
    · rw [cpuStore_ram hr hs, storeNext_l1dRam hr hp, hk, hlen]; rfl
    · have hreg : ∀ b, t.region b = s.region b := fun b => (region_congr (s := s) (t := t) rfl rfl rfl rfl b).1
      have hpiece : firstPiece a width = width := firstPiece_of_unit (by rw [← hlen, hk, hkeq, hlen])
      have hone : severalSteps a (firstPiece a width) = false := by
        unfold severalSteps
        rw [hpiece, ← hlen, hk, hkeq, hlen]; simp
      have hbytes : t.mem.readBytes a width = bytes := List.ext_getElem? fun i => by
        rcases Nat.lt_or_ge i width with hi | hi
        · rw [readBytes_getElem? _ _ _ _ hi]
          exact hin i (by omega) (hrom i (by omega))
        · rw [List.getElem?_eq_none (by rw [readBytes_length]; exact hi), List.getElem?_eq_none (by rw [hlen]; exact hi)]
      have hrest : t.setRest none = t := by
        show t.setRest none = ((s.putBytes a (bytes.take k)).setRest _).setReply .none
        rw [if_neg (by omega)]; rfl
      refine ⟨bytes, ?_, hlen, valueOf_bytesOf ..⟩
      rw [cpuLoad_ram ((hreg a).trans hr) ((accessStop_congr hreg a width).trans hs),
        loadNext_l1dRam ((hreg a).trans hr) hread (.inl hone), hpiece, if_neg (Nat.lt_irrefl _), hrest, hbytes]
      rfl
  case storeMore =>
    intro k
    have hkw : k ≤ bs.length := unitLen_le a bs.length
    obtain ⟨hin, hout⟩ := putUnit_bytes hw a bs k hkw
    let t := (s.putBytes a (bs.take k)).setRest (if k < bs.length then some (.store (a + k) (bs.drop k)) else none)
    refine ⟨t, ?_, rfl, hin, hout⟩
    unfold State.accessMore
    rw [hrest]
    exact storeNext_l1dRam hr hp bs true
  case load =>
    refine ⟨fun hin => ?_, fun hcross => ?_⟩
    · have hpiece : firstPiece a width = width := by unfold firstPiece; omega
      rw [cpuLoad_ram hr hs, loadNext_l1dRam hr hp (.inr ha), hpiece, if_neg (Nat.lt_irrefl _)]; rfl
    · intro k
      have hpiece : firstPiece a width = k := by unfold firstPiece; omega
      rw [cpuLoad_ram hr hs, loadNext_l1dRam hr hp (.inr ha), hpiece, if_pos (by omega)]; rfl
  case loadMore =>
    have hpiece : firstPiece a n = n := by unfold firstPiece; omega
    unfold State.accessMore
    rw [hrest]
    refine (loadNext_l1dRam hr hp (.inr ha) got).trans ?_
    rw [hpiece, if_neg (Nat.lt_irrefl _)]; rfl

end Sys2Proof.Proofs.L1dRam

/-!
PROOFS. The L2 cache: a line allocated for a read, the dirty line that goes out before it, units read ahead, and the service of
a write buffer entry (spec/42_l2.md R286, R300, R303, R341; spec/20_memory.md R108, R130).
-/
namespace Sys2Proof.Proofs.L2Cache
open Sys2Proof Sys2Proof.Machine Sys2Proof.Proofs.L2Service

/-! ### A line that goes out depends on memory, the statuses and the free values only -/

theorem busError_replies (s : State) (op : BusOp) (x : BitVec 4) (t : BitVec 3) :
    (s.busError op x t).emc.replies = s.emc.replies ∧ (s.busError op x t).free = s.free := by
  have h (m : Emc) (e : Nat) : ((s.setEmc m).raise e).emc.replies = m.replies ∧ ((s.setEmc m).raise e).free = s.free := ⟨rfl, rfl⟩
  unfold State.busError
  split
  · exact h { s.emc with busErr := busErrValue op x t } 127
  · exact ⟨rfl, rfl⟩

/-- Whether the next transaction succeeds. -/
def nextSucceeds (s : State) : Bool :=
  match s.emc.replies with
  | .error _ _ :: _ => false
  | .ok :: _ | [] => true

theorem transact_spec (s : State) (op : BusOp) (a n : Nat) (p : Priv) (id : Nat) : let r := s.transact op a n p id
    r.2 = nextSucceeds s ∧ r.1.emc.replies = s.emc.replies.tail ∧ r.1.free = s.free := by
  unfold State.transact nextSucceeds
  cases h : s.emc.replies with
  | nil => exact ⟨rfl, h, rfl⟩
  | cons r t =>
    cases r with
    | ok => exact ⟨rfl, rfl, rfl⟩
    | error x stat => exact ⟨rfl, (busError_replies ..).1, (busError_replies ..).2⟩

theorem extWriteLine_spec (s : State) (v : Victim) :
    (s.extWriteLine v).mem = (if nextSucceeds s || Config.freeBool s.free then s.mem.writeMasked v.addr v.bytes else s.mem) ∧
    (s.extWriteLine v).emc.replies = s.emc.replies.tail := by
  obtain ⟨h2, hr, hf⟩ := transact_spec s .mdmaWrite v.addr v.bytes.length .supervisor s.plat.cpuId
  have hm := transact_mem s .mdmaWrite v.addr v.bytes.length .supervisor s.plat.cpuId
  unfold State.extWriteLine State.busWrite
  dsimp only
  rw [h2, hf, ← hr, ← hm]
  cases nextSucceeds s with
  | true => exact ⟨rfl, rfl⟩
  | false =>
    cases Config.freeBool s.free with
    | true => exact ⟨rfl, rfl⟩
    | false => exact ⟨rfl, rfl⟩

theorem extWriteLine_congr {s t : State} (hm : t.mem = s.mem) (hr : t.emc.replies = s.emc.replies) (hf : t.free = s.free)
    (v : Victim) : (t.extWriteLine v).mem = (s.extWriteLine v).mem ∧
      (t.extWriteLine v).emc.replies = (s.extWriteLine v).emc.replies := by
  have hn : nextSucceeds t = nextSucceeds s := by unfold nextSucceeds; rw [hr]
  rw [(extWriteLine_spec t v).1, (extWriteLine_spec t v).2, (extWriteLine_spec s v).1, (extWriteLine_spec s v).2, hn, hm, hr, hf]
  exact ⟨rfl, rfl⟩

/-! ### Allocation -/

/-- The state in which L2 reads the line it allocates: what it evicts has gone out. -/
def afterEviction (s : State) (a : Nat) : State :=
  match s.l2Victim a with
  | some l => s.finishOut.extWriteLine (l.out .l2 s.l2Sets)
  | none => s.finishOut

theorem l2Evict_finishOut (s : State) (a : Nat) : (s.l2Evict a).finishOut.mem = (afterEviction s a).mem ∧
    (s.l2Evict a).finishOut.emc.replies = (afterEviction s a).emc.replies := by
  unfold State.l2Evict afterEviction
  cases s.l2Victim a with
  | none => exact ⟨rfl, rfl⟩
  | some l =>
    let d := s.finishOut.dropFills fun x => x / 128 = a / 128
    let t := d.setL2 { d.l2 with lines := dropLine d.l2.lines l.set l.way, out := some (l.out .l2 s.l2Sets) }
    show t.finishOut.mem = _ ∧ t.finishOut.emc.replies = _
    rw [LineBytes.finishOut_of_some (s := t) (w := l.out .l2 s.l2Sets) rfl]
    exact extWriteLine_congr (s := s.finishOut) (t := t.setL2 { t.l2 with out := none }) rfl rfl rfl _

/-- A line allocated for a read holds memory's bytes, after the line it replaces has gone out. -/
theorem l2Allocate_spec {s : State} {k : AheadKind} {a : Nat} (p : Priv) (hk : s.aheadOf k = [])
    (h : (afterEviction s a).emc.replies.head? ∈ [none, some .ok]) : let r := s.l2Allocate k a p
    r.1.mem = (afterEviction s a).mem ∧ r.1.l2.lines.head? = some r.2 ∧ r.2.set = Machine.setOf .l2 s.l2Sets a ∧
    r.2.tag = tagOf .l2 s.l2Sets a ∧ r.2.dirty = false ∧ r.2.data = (afterEviction s a).mem.readBytes (a / 128 * 128) 128 := by
  obtain ⟨hmem, hrep⟩ := l2Evict_finishOut s a
  obtain ⟨g, m, x, ws, e, -, -⟩ := extRead_frame (s.l2Evict a) k (a / 128 * 128) 128 p
  have hm : ((s.l2Evict a).extRead k (a / 128 * 128) 128 p).1.mem = (s.l2Evict a).finishOut.mem := by rw [e]
  have hdata := extRead_ok (s := s.l2Evict a) (a / 128 * 128) 128 p ((served_l2Evict s a).ahead k hk) (by rw [hrep]; exact h)
  refine ⟨hm.trans hmem, ?_, rfl, rfl, rfl, hdata.trans (by rw [hmem])⟩
  unfold State.l2Allocate
  dsimp only
  obtain ⟨r, er⟩ := l2_touch_eq { ((s.l2Evict a).extRead k (a / 128 * 128) 128 p).1.l2 with lines := putLine _ _ } _ _
  rw [er]; rfl

/-! ### A load that is denied reads and leaves the cache as it was -/

theorem l2Probe_ram {s : State} {a : Nat} (h : s.inL2Ram a = true) (n : Nat) (p : Priv) : s.l2Probe a n p = s.wakePages a := if_pos h

theorem extRead_cache (s : State) (k : AheadKind) (a n : Nat) (p : Priv) :
    (s.extRead k a n p).1.l2.lines = s.l2.lines ∧ (s.extRead k a n p).1.l2.lru = s.l2.lru ∧
    (s.l2.out = none → (s.extRead k a n p).1.mem = s.mem) := by
  obtain ⟨g, m, x, ws, e, -, -⟩ := extRead_frame s k a n p
  rw [e]
  exact ⟨rfl, rfl, fun h => by rw [LineBytes.finishOut_of_none h]⟩

theorem l2Probe_cache (s : State) (a n : Nat) (p : Priv) : (s.l2Probe a n p).l2.lines = s.l2.lines ∧
    (s.l2Probe a n p).l2.lru = s.l2.lru ∧ (s.l2.out = none → (s.l2Probe a n p).mem = s.mem) := by
  unfold State.l2Probe
  split
  · exact ⟨rfl, rfl, fun _ => rfl⟩
  · split
    · exact ⟨rfl, rfl, fun _ => rfl⟩
    · split
      · exact extRead_cache ..
      · exact extRead_cache ..

/-! ### Units read ahead for a line -/

theorem readAhead_none {s : State} {k : AheadKind} {a n : Nat} (h : s.unitNow k a n = none) : s.readAhead k a n = s := by
  unfold State.readAhead
  rw [h]
  exact ite_self s

/-- External memory is read ahead only where it may be. -/
theorem unitNow_fill {s : State} {k : AheadKind} (hk : k ∈ [AheadKind.loadFill, .fetchFill, .drainFill]) {a : Nat} (n : Nat)
    (h : s.mayFill k a = false ∨ s.readyToFill a = false) : s.unitNow k a n = none := by
  have hc : ¬(s.mayFill k a && s.readyToFill a) = true := by
    rcases h with h | h
    · rw [h]; exact Bool.false_ne_true
    · rw [h, Bool.and_false]; exact Bool.false_ne_true
  have hne : k ≠ .load ∧ k ≠ .fetch := by
    constructor
    · rintro rfl; simp at hk
    · rintro rfl; simp at hk
  unfold State.unitNow
  split
  case h_1 | h_2 | h_3 => exact absurd rfl hne.1
  case h_4 | h_5 | h_6 => exact absurd rfl hne.2
  case h_7 => exact if_neg hc
  case h_8 => rfl

/-! ### Service of a write buffer entry -/

theorem l2Write_ram {s : State} {e : WbEntry} (h : s.inL2Ram e.first = true) : s.l2Write e =
    if s.allows (s.l2Perm e.first) s.plat.cpuId e.priv .write true then (s.wakePages e.first).putMasked e.quad e.bytes
    else (s.wakePages e.first).recordFault .l2 .local e.first e.priv .write s.plat.cpuId := if_pos h

section
variable {s : State} {e : WbEntry} (h : s.inL2Ram e.first = false) (hr : s.region e.first = .external)
include h hr

theorem l2Write_hit {l : Line} (hl : s.l2Lookup e.first = some l) : s.l2Write e =
    if s.allows (s.l2Perm e.first) s.plat.cpuId e.priv .write false then
      (s.l2Merge l (e.quad % 128) e.bytes).setL2 ((s.l2Merge l (e.quad % 128) e.bytes).l2.touch l.set l.way)
    else s.recordFault .l2 .local e.first e.priv .write s.plat.cpuId := by
  unfold State.l2Write
  dsimp only
  rw [if_neg (ne_true_of_eq_false h), hr, hl]

theorem l2Write_allocate (hl : s.l2Lookup e.first = none) (hm : s.mayAllocateL2 e.first = true) : s.l2Write e =
    if s.allows (s.l2Perm e.first) s.plat.cpuId e.priv .write false then
      (s.l2Allocate .drainFill e.first e.priv).1.l2Merge (s.l2Allocate .drainFill e.first e.priv).2 (e.quad % 128) e.bytes
    else s.recordFault .l2 .local e.first e.priv .write s.plat.cpuId := by
  unfold State.l2Write
  dsimp only
  rw [if_neg (ne_true_of_eq_false h), hr, hl]
  exact if_pos hm

end

/-- A denied write only records its fault, after a sleeping page of L2 RAM is awake. -/
theorem l2Write_denied {s : State} {e : WbEntry} (h : s.inL2Ram e.first = true ∨
      (s.region e.first = .external ∧ ((s.l2Lookup e.first).isSome = true ∨ s.mayAllocateL2 e.first = true)))
    (hp : s.allows (s.l2Perm e.first) s.plat.cpuId e.priv .write (s.inL2Ram e.first) = false) :
    s.l2Write e = (if s.inL2Ram e.first then s.wakePages e.first else s).recordFault .l2 .local e.first e.priv .write s.plat.cpuId := by
  cases hram : s.inL2Ram e.first with
  | true =>
    rw [hram] at hp
    rw [l2Write_ram hram, hp]; rfl
  | false =>
    rw [hram] at hp h
    obtain ⟨hr, hfound⟩ := h.resolve_left Bool.false_ne_true
    cases hl : s.l2Lookup e.first with
    | some l => rw [l2Write_hit hram hr hl, hp]; rfl
    | none =>
      rw [hl] at hfound
      rw [l2Write_allocate hram hr hl (hfound.resolve_left Bool.false_ne_true), hp]; rfl

/-- What waking pages and recording a fault keep. -/
theorem recordFault_data (s : State) (x : Block) (o : Origin) (a : Nat) (p : Priv) (k : Kind) (id : Nat) :
    let t := s.recordFault x o a p k id
    t.mem = s.mem ∧ t.l1p = s.l1p ∧ t.l1d = s.l1d ∧ t.l2 = s.l2 ∧ t.cpu = s.cpu ∧ t.plat = s.plat := by
  obtain ⟨m1, m2, m3, g, e⟩ := recordFault_eq s x o a p k id
  rw [e]
  exact ⟨rfl, rfl, rfl, rfl, rfl, rfl⟩

end Sys2Proof.Proofs.L2Cache

/-!
PROOFS. CPU loads and stores through L1D: hits, misses, the write buffer and denied accesses (spec/41_l1d.md R225, R226, R228,
R258, R259; spec/42_l2.md R286, R300 to R303, R336, R342).
-/
namespace Sys2Proof.Proofs.CpuAccess
open Sys2Proof Sys2Proof.Machine Sys2Proof.Proofs.L2Service Sys2Proof.Proofs.L2Cache Sys2Proof.Proofs.L1dRam
  Sys2Proof.Proofs.Commands

/-! ### What the lookup of L1D depends on -/

theorem l1dSets_congr {s t : State} (hp : t.plat = s.plat) (hm : t.l1d.mode = s.l1d.mode) : t.l1dSets = s.l1dSets := by
  unfold State.l1dSets State.l1dSize
  rw [hp, hm]

theorem l1dLookup_congr {s t : State} (hp : t.plat = s.plat) (hm : t.l1d.mode = s.l1d.mode) (hl : t.l1d.lines = s.l1d.lines)
    (a : Nat) : t.l1dLookup a = s.l1dLookup a := by
  unfold State.l1dLookup
  rw [l1dSets_congr hp hm, hl]

theorem drainVictim_l1dLookup (s : State) (a : Nat) : s.drainVictim.l1dLookup a = s.l1dLookup a :=
  l1dLookup_congr (drainVictim_power s).1 (by rw [drainVictim_l1d]) (by rw [drainVictim_l1d]) a

theorem drainAll_l1dLookup (s : State) (a : Nat) : s.drainAll.l1dLookup a = s.l1dLookup a :=
  l1dLookup_congr (quiet_drainAll s).plat (by rw [drainAll_l1d]) (by rw [drainAll_l1d]) a

/-- With both buffers empty, nothing is drained. -/
theorem drainAll_of_empty {s : State} (hv : s.l1d.victim = none) (hw : s.l1d.wbuf = []) : s.drainAll = s := by
  unfold State.drainAll
  rw [drainVictim_of_none hv, hw]; rfl

/-! ### Loads -/

theorem loadPiece_cached {s : State} {a : Nat} (h : s.region a = .l2Ram ∨ s.region a = .external) (n : Nat) (multi : Bool) :
    s.loadPiece a n multi = .ok ((s.wakeForCpu a).loadCached a n multi) := by
  unfold State.loadPiece
  rcases h with h | h
  · rw [h]
  · rw [h]

theorem loadCached_hit {s : State} {a : Nat} {l : Line} (hl : s.l1dLookup a = some l) (n : Nat) (multi : Bool) :
    s.loadCached a n multi = if s.allows l.perm s.plat.cpuId s.cpu.priv .read (s.inL2Ram a) then
        (s.setL1d (s.l1d.touch l.set l.way), s.torn multi .load a (slice l.data (a % 64) n))
      else s.deniedRead .l1d .local a n s.cpu.priv s.plat.cpuId := by
  unfold State.loadCached
  rw [hl]

/-- A load that has missed, with both buffers empty. -/
def loadMissed (s : State) (a n : Nat) (multi : Bool) : State × List Byte :=
  if s.allows (s.l2Perm a) s.plat.cpuId s.cpu.priv .read (s.inL2Ram a) then
    if s.l1dAllocates a then
      ((s.l1dAllocate a (s.l2Perm a) s.cpu.priv).1, (s.l1dAllocate a (s.l2Perm a) s.cpu.priv).1.torn multi .load a
        (slice (s.l1dAllocate a (s.l2Perm a) s.cpu.priv).2.data (a % 64) n))
    else ((s.l2Read .loadFill a n s.cpu.priv).1,
      (s.l2Read .loadFill a n s.cpu.priv).1.torn multi .load a (s.l2Read .loadFill a n s.cpu.priv).2)
  else (if s.l1dAllocates a then s.l2Probe (a / 64 * 64) 64 s.cpu.priv else s.l2Probe a n s.cpu.priv).deniedRead .l1d .local a n
    s.cpu.priv s.plat.cpuId

theorem loadCached_miss {s : State} {a : Nat} (hl : s.l1dLookup a = none) (n : Nat) (multi : Bool) :
    s.loadCached a n multi = loadMissed s.drainAll a n multi := by
  have hpriv : s.drainAll.cpu.priv = s.cpu.priv := (quiet_drainAll s).priv
  have hplat : s.drainAll.plat = s.plat := (quiet_drainAll s).plat
  unfold State.loadCached loadMissed
  rw [hl, hpriv, hplat]

/-- A miss empties the buffers first. -/
theorem loadCached_drains {s : State} {a : Nat} (hl : s.l1dLookup a = none) (n : Nat) (multi : Bool) :
    s.loadCached a n multi = s.drainAll.loadCached a n multi := by
  have he : s.drainAll.drainAll = s.drainAll := drainAll_of_empty (by rw [drainAll_l1d]) (by rw [drainAll_l1d])
  rw [loadCached_miss hl, loadCached_miss ((drainAll_l1dLookup s a).trans hl), he]

theorem deniedRead_eq (s : State) (x : Block) (o : Origin) (a n : Nat) (p : Priv) (id : Nat) : s.deniedRead x o a n p id =
    ({ s.recordFault x o a p .read id with free := s.free + 1 }, (List.range n).map fun i => Config.freeByte s.free i) := by
  have hf : (s.recordFault x o a p .read id).free = s.free := by
    obtain ⟨m1, m2, m3, g, e⟩ := recordFault_eq s x o a p .read id
    rw [e]
  unfold State.deniedRead freeBytes State.spend
  rw [hf]; rfl

/-- L1D evicts a line for a load: the platform, the mode, the CPU, memory and L2 stay. -/
theorem l1dEvict_frame (s : State) (set way : Nat) :
    ∃ ls v, s.l1dEvict set way = s.setL1d { s.l1d with lines := ls, victim := v } := by
  unfold State.l1dEvict
  split
  · exact ⟨_, _, rfl⟩
  · exact ⟨s.l1d.lines, s.l1d.victim, rfl⟩

theorem l1d_touch_eq (c : L1d) (set way : Nat) : ∃ r, c.touch set way = { c with lru := r } := by
  unfold L1d.touch
  split
  · exact ⟨c.lru, rfl⟩
  · exact ⟨_, rfl⟩

/-- A line allocated from L2 RAM holds memory's bytes. -/
theorem l1dAllocate_ram {s : State} {a : Nat} (h : s.inL2Ram (a / 64 * 64) = true) (m : BitVec 16) (p : Priv) :
    let r := s.l1dAllocate a m p
    r.1.mem = s.mem ∧ r.1.l1d.lines.head? = some r.2 ∧ r.2.set = Machine.setOf .l1d s.l1dSets a ∧
    r.2.tag = tagOf .l1d s.l1dSets a ∧ r.2.dirty = false ∧ r.2.data = s.mem.readBytes (a / 64 * 64) 64 ∧ r.2.perm = m := by
  intro r
  obtain ⟨ls, v, e⟩ := l1dEvict_frame s (Machine.setOf .l1d s.l1dSets a) ((s.l1d.lru.lookup (Machine.setOf .l1d s.l1dSets a)).getD 0)
  have hram : (s.setL1d { s.l1d with lines := ls, victim := v }).inL2Ram (a / 64 * 64) = true := h
  have hr : r = s.l1dAllocate a m p := rfl
  unfold State.l1dAllocate at hr
  dsimp only at hr
  rw [e, l2Read_ram hram] at hr
  rw [hr]
  obtain ⟨t, ht⟩ := l1d_touch_eq { s.l1d with lines := putLine ls _, victim := v } (Machine.setOf .l1d s.l1dSets a)
    ((s.l1d.lru.lookup (Machine.setOf .l1d s.l1dSets a)).getD 0)
  refine ⟨rfl, ?_, rfl, rfl, rfl, rfl, rfl⟩
  exact (congrArg (fun c : L1d => c.lines.head?) ht).trans rfl

/-! ### Stores -/

theorem storePiece_cached {s : State} {a : Nat} (h : s.region a = .l2Ram ∨ s.region a = .external) (bs : List Byte) (more : Bool) :
    s.storePiece a bs more = .ok ((s.wakeForCpu a).storeCached a bs more) := by
  unfold State.storePiece
  rcases h with h | h
  · rw [h]
  · rw [h]

theorem storeCached_hit {s : State} {a : Nat} {l : Line} (hl : s.l1dLookup a = some l) (bs : List Byte) (more : Bool) :
    s.storeCached a bs more = if s.allows l.perm s.plat.cpuId s.cpu.priv .write (s.inL2Ram a) then
        s.setL1d ({ s.l1d with lines := putLine s.l1d.lines
                                 { l with data := overlay l.data (a % 64) (bs.map some), dirty := true } }.touch l.set l.way)
      else s.recordFault .l1d .local a s.cpu.priv .write s.plat.cpuId := by
  unfold State.storeCached
  rw [hl]

theorem storeCached_miss {s : State} {a : Nat} (hl : s.l1dLookup a = none) (bs : List Byte) (more : Bool) :
    s.storeCached a bs more = s.enqueue a bs s.cpu.priv more := by
  unfold State.storeCached
  rw [hl]

/-- A miss sends a victim on its way first. -/
theorem storeCached_drains {s : State} {a : Nat} (hl : s.l1dLookup a = none) (bs : List Byte) (more : Bool) :
    s.storeCached a bs more = s.drainVictim.storeCached a bs more := by
  have he : s.drainVictim.drainVictim = s.drainVictim := drainVictim_of_none (by rw [drainVictim_l1d])
  rw [storeCached_miss hl, storeCached_miss ((drainVictim_l1dLookup s a).trans hl), drainVictim_cpu]
  unfold State.enqueue
  rw [he]

/-- The entry of a write miss. -/
def newEntry (a : Nat) (bs : List Byte) (p : Priv) : WbEntry :=
  { quad := a / 16 * 16, first := a, bytes := quadMask (a % 16) bs, priv := p }

section
variable {s : State} (hv : s.l1d.victim = none) (a : Nat) (bs : List Byte) (p : Priv) (more : Bool)
include hv

theorem enqueue_joins {e : WbEntry} (he : s.l1d.wbuf.getLast? = some e)
    (hj : (s.merges e a p || (more && e.continues a p)) = true) : s.enqueue a bs p more = s.setL1d { s.l1d with
      wbuf := s.l1d.wbuf.dropLast ++ [{ e with bytes := mergeMask e.bytes (newEntry a bs p).bytes }] } := by
  unfold State.enqueue
  dsimp only
  rw [drainVictim_of_none hv, he]
  exact if_pos hj

/-- An entry that joins none is appended, to a full buffer after its oldest entry is drained. -/
theorem enqueue_new (hj : ∀ e, s.l1d.wbuf.getLast? = some e → (s.merges e a p || (more && e.continues a p)) = false) :
    s.enqueue a bs p more = if s.l1d.wbuf.length < 4 then s.setL1d { s.l1d with wbuf := s.l1d.wbuf ++ [newEntry a bs p] }
      else s.drainOne.setL1d { s.drainOne.l1d with wbuf := s.drainOne.l1d.wbuf ++ [newEntry a bs p] } := by
  unfold State.enqueue
  dsimp only
  rw [drainVictim_of_none hv]
  cases he : s.l1d.wbuf.getLast? with
  | none =>
    rw [List.getLast?_eq_none_iff.1 he]; rfl
  | some e =>
    dsimp only
    rw [if_neg (ne_true_of_eq_false (hj e he))]
    split
    · rfl
    · rfl

end

/-- Settles O50: the page or the line denies the store; L2 denies the entry. -/
theorem deniedStoreChangesNoData : Obligations.DeniedStoreChangesNoData := by
  refine ⟨fun s a bs more hram hline => ?_, fun s e h hp => ?_⟩
  · intro w
    have hkeeps : ∀ u : State, u = s ∨ u = s.wakePages a →
        KeepsData s (u.recordFault .l1d .local a s.cpu.priv .write s.plat.cpuId) := by
      intro u hu
      have hwoken : KeepsData s u := by
        rcases hu with rfl | rfl
        · exact keepsData_refl u
        · exact ⟨fun _ => rfl, rfl, rfl, rfl, rfl, rfl, rfl, rfl, rfl⟩
      exact keepsData_trans hwoken (keepsData_recordFault ..)
    by_cases hr : s.region a = .l1dRam
    · have hw : w = s := if_neg fun h => h.1 hr
      refine ⟨_, ?_, rfl, hkeeps w (.inl hw)⟩
      rw [storePiece_l1dRam hr, hram hr, hw]; rfl
    · obtain ⟨hreg, l, hl, hp⟩ := hline hr
      have hw : w = s.wakeForCpu a := if_congr (and_iff_right hr) rfl rfl
      have hu : w = s ∨ w = s.wakePages a := by
        rw [hw]
        unfold State.wakeForCpu
        split
        · exact .inr rfl
        · exact .inl rfl
      refine ⟨_, ?_, rfl, hkeeps w hu⟩
      rw [storePiece_cached hreg, ← hw]
      have hw' : w.l1dLookup a = some l ∧ w.allows l.perm w.plat.cpuId w.cpu.priv .write (w.inL2Ram a) = false ∧
          w.cpu.priv = s.cpu.priv ∧ w.plat.cpuId = s.plat.cpuId := by
        rcases hu with e | e
        · rw [e]; exact ⟨hl, hp, rfl, rfl⟩
        · rw [e]; exact ⟨hl, hp, rfl, rfl⟩
      obtain ⟨hl', hp', hpriv, hid⟩ := hw'
      rw [storeCached_hit hl', hp', hpriv, hid]; rfl
  · rw [l2Write_denied h hp]
    obtain ⟨hmem, hl1p, hl1d, hl2, -, -⟩ := recordFault_data (if s.inL2Ram e.first then s.wakePages e.first else s) .l2 .local e.first
      e.priv .write s.plat.cpuId
    have hw : ∀ b : Bool, (if b then s.wakePages e.first else s).mem = s.mem ∧ (if b then s.wakePages e.first else s).l1p = s.l1p ∧
        (if b then s.wakePages e.first else s).l1d = s.l1d ∧ (if b then s.wakePages e.first else s).l2.lines = s.l2.lines := by
      intro b
      cases b with
      | true => exact ⟨rfl, rfl, rfl, rfl⟩
      | false => exact ⟨rfl, rfl, rfl, rfl⟩
    obtain ⟨h1, h2, h3, h4⟩ := hw (s.inL2Ram e.first)
    exact ⟨rfl, hmem.trans h1, hl1p.trans h2, hl1d.trans h3, (congrArg L2.lines hl2).trans h4⟩

end Sys2Proof.Proofs.CpuAccess

/-!
PROOFS. The accesses through the caches as one statement (spec/20_memory.md section 6, spec/41_l1d.md sections 2 and 9,
spec/42_l2.md sections 2 and 4), from the rules about L1D, the write buffer and L2.
-/
namespace Sys2Proof.Proofs.CachedAccess
open Sys2Proof Sys2Proof.Machine Sys2Proof.Proofs.L2Service Sys2Proof.Proofs.L2Cache Sys2Proof.Proofs.CpuAccess
  Sys2Proof.Proofs.LineBytes

/-- Units read ahead for another kind of read are not seen. -/
theorem tear_of_kind {s : State} {k : AheadKind} (h : ∀ w ∈ s.aheadOf k, w.kind ≠ k) (a : Nat) (bs : List Byte) :
    s.tear k a bs = bs := by
  have hb (u : Nat × Nat) (x : Nat) : aheadByte (s.aheadOf k) k u x = none := by
    unfold aheadByte
    rw [List.find?_eq_none.2 fun w hw => by simp [h w hw]]
  unfold State.tear
  simp only [hb, Option.getD_none]
  exact List.ext_getElem? fun i => by rw [List.getElem?_mapIdx]; exact Option.map_id' ..

/-- A failed read for a load leaves no unit of the load. -/
theorem extRead_failed_load {s : State} {x : BitVec 4} {stat : BitVec 3} {rest : List BusReply} (a n : Nat) (p : Priv)
    (h : s.finishOut.emc.replies = .error x stat :: rest) : ∀ w ∈ (s.extRead .loadFill a n p).1.aheadOf .load, w.kind ≠ .load := by
  unfold State.extRead
  dsimp only
  rw [h]
  intro w hw
  exact of_decide_eq_true (List.mem_filter.1 hw).2

theorem l1d_touch_lines (c : L1d) (ls : List Line) (set way : Nat) :
    ({ c with lines := ls } : L1d).touch set way = { c.touch set way with lines := ls } := by
  unfold L1d.touch
  dsimp only
  split
  · rfl
  · rfl

/-- What waking pages changes. -/
theorem wakePages_frame (s : State) (a : Nat) : (s.wakePages a).l2 = { s.l2 with sleep := (s.wakePages a).l2.sleep } ∧
    s.wakePages a = { s with l2 := (s.wakePages a).l2 } ∧
    ∀ q : Fin 4, (s.wakePages a).l2.sleep[q] = (s.l2.sleep[q] && !(s.plat.l2.pdPages[q]).has a) :=
  ⟨rfl, rfl, wakePages_sleep s a⟩

/-- A buffered write to L2 RAM that its page allows stores its bytes. -/
theorem drainOne_ram {s : State} (hw : s.mem.wf = true) {e : WbEntry} {rest : List WbEntry} (hv : s.l1d.victim = none)
    (hb : s.l1d.wbuf = e :: rest) (hram : s.inL2Ram e.first = true)
    (hp : s.allows (s.l2Perm e.first) s.plat.cpuId e.priv .write true = true) : ∃ t, s.drainOne = t ∧
      t = { s with l1d := { s.l1d with wbuf := rest }, l2 := { s.l2 with sleep := t.l2.sleep }, mem := t.mem
                   emc := { s.emc with fills := dropKind .drainFill s.emc.fills } } ∧
      (∀ i b, e.bytes[i]? = some (some b) → s.plat.isRom (e.quad + i) = false → t.mem.read (e.quad + i) = b) ∧
      ∀ c, (s.plat.isRom c = true ∨ ∀ i b, e.bytes[i]? = some (some b) → c ≠ e.quad + i) → t.mem.read c = s.mem.read c := by
  let u := s.setL1d { s.l1d with wbuf := rest }
  have hram' : u.inL2Ram e.first = true := hram
  have hp' : u.allows (u.l2Perm e.first) u.plat.cpuId e.priv .write true = true := hp
  have hd : s.drainOne = ((u.wakePages e.first).putMasked e.quad e.bytes).endDrain := by
    unfold State.drainOne
    dsimp only
    rw [drainVictim_of_none hv, hb]
    show (u.l2Write e).endDrain = _
    rw [l2Write_ram hram', if_pos hp']
  have hread : ∀ c, s.drainOne.mem.read c =
      if s.plat.isRom c then s.mem.read c else ((if e.quad ≤ c then e.bytes[c - e.quad]?.join else none).getD (s.mem.read c)) :=
    fun c => by rw [hd]; exact State.putMasked_read (s := u.wakePages e.first) hw e.quad c e.bytes
  refine ⟨s.drainOne, rfl, by rw [hd]; rfl, fun i b hi hrom => ?_, fun c hc => ?_⟩
  · rw [hread, if_neg (ne_true_of_eq_false hrom), if_pos (Nat.le_add_right ..), Nat.add_sub_cancel_left, hi]; rfl
  · rw [hread]
    rcases hc with hc | hc
    · rw [if_pos hc]
    · have hnone : (if e.quad ≤ c then e.bytes[c - e.quad]?.join else none) = none := by
        split
        · next hle =>
          cases hj : e.bytes[c - e.quad]?.join with
          | none => rfl
          | some b => exact absurd (by omega) (hc _ b (Option.join_eq_some_iff.1 hj))
        · rfl
      rw [hnone]
      exact ite_self _

/-- The state in which L2 reads a line it allocates, by the line in the way that it fills. -/
theorem afterEviction_eq (s : State) (a : Nat) : afterEviction s a =
    match lineAt s.l2.lines (Machine.setOf .l2 s.l2Sets a) ((s.l2.order (Machine.setOf .l2 s.l2Sets a)).headD 0) with
    | some l => if l.dirty then s.finishOut.extWriteLine (l.out .l2 s.l2Sets) else s.finishOut
    | none => s.finishOut := by
  unfold afterEviction State.l2Victim
  cases lineAt s.l2.lines (Machine.setOf .l2 s.l2Sets a) ((s.l2.order (Machine.setOf .l2 s.l2Sets a)).headD 0) with
  | none => rfl
  | some l =>
    cases h : l.dirty with
    | true => rw [Option.filter_some_pos h]; exact (if_pos h).symm
    | false => rw [Option.filter_some_neg h]; exact (if_neg (ne_true_of_eq_false h)).symm

/-- A load that misses and is denied: it reads below, records its fault and leaves both caches as they were. -/
theorem loadCached_denied {s : State} {a : Nat} (n : Nat) (multi : Bool) (hl : s.l1dLookup a = none) (hv : s.l1d.victim = none)
    (hb : s.l1d.wbuf = []) (hp : s.allows (s.l2Perm a) s.plat.cpuId s.cpu.priv .read (s.inL2Ram a) = false) : ∃ u : State,
      s.loadCached a n multi = ({ u.recordFault .l1d .local a s.cpu.priv .read s.plat.cpuId with free := u.free + 1 },
        (List.range n).map fun i => Config.freeByte u.free i) ∧
      u.l1p = s.l1p ∧ u.l1d = s.l1d ∧ u.l2.lines = s.l2.lines ∧ u.l2.lru = s.l2.lru ∧ (s.l2.out = none → u.mem = s.mem) ∧
      (s.inL2Ram a = true → s.l1dAllocates a = false → u = s.wakePages a) := by
  have hmiss : s.loadCached a n multi = loadMissed s a n multi := by rw [loadCached_miss hl, drainAll_of_empty hv hb]
  unfold loadMissed at hmiss
  rw [hp] at hmiss
  cases ha : s.l1dAllocates a with
  | true =>
    rw [ha] at hmiss
    obtain ⟨h1, h2, h3⟩ := l2Probe_cache s (a / 64 * 64) 64 s.cpu.priv
    have hs := served_l2Probe s (a / 64 * 64) 64 s.cpu.priv
    exact ⟨s.l2Probe (a / 64 * 64) 64 s.cpu.priv, hmiss.trans (deniedRead_eq ..), hs.l1p, hs.l1d, h1, h2, h3,
      fun _ hf => nomatch hf⟩
  | false =>
    rw [ha] at hmiss
    obtain ⟨h1, h2, h3⟩ := l2Probe_cache s a n s.cpu.priv
    have hs := served_l2Probe s a n s.cpu.priv
    exact ⟨s.l2Probe a n s.cpu.priv, hmiss.trans (deniedRead_eq ..), hs.l1p, hs.l1d, h1, h2, h3,
      fun hram _ => l2Probe_ram hram n s.cpu.priv⟩

/-- A load that misses and is allowed, with both buffers empty. -/
theorem loadCached_allowed {s : State} {a : Nat} (n : Nat) (multi : Bool) (hl : s.l1dLookup a = none) (hv : s.l1d.victim = none)
    (hb : s.l1d.wbuf = []) (hp : s.allows (s.l2Perm a) s.plat.cpuId s.cpu.priv .read (s.inL2Ram a) = true) :
    s.loadCached a n multi = if s.l1dAllocates a then
        ((s.l1dAllocate a (s.l2Perm a) s.cpu.priv).1, (s.l1dAllocate a (s.l2Perm a) s.cpu.priv).1.torn multi .load a
          (slice (s.l1dAllocate a (s.l2Perm a) s.cpu.priv).2.data (a % 64) n))
      else ((s.l2Read .loadFill a n s.cpu.priv).1,
        (s.l2Read .loadFill a n s.cpu.priv).1.torn multi .load a (s.l2Read .loadFill a n s.cpu.priv).2) := by
  rw [loadCached_miss hl, drainAll_of_empty hv hb]
  exact if_pos hp

/-- A load that reads external memory and fails answers unspecified bytes only. -/
theorem loadCached_failed {s : State} {a n : Nat} (multi : Bool) {x : BitVec 4} {stat : BitVec 3} {rest : List BusReply}
    (hl : s.l1dLookup a = none) (hv : s.l1d.victim = none) (hb : s.l1d.wbuf = []) (hram : s.inL2Ram a = false)
    (hl2 : s.l2Lookup a = none) (hm : s.mayAllocateL2 a = false) (ha : s.l1dAllocates a = false)
    (hp : s.allows (s.l2Perm a) s.plat.cpuId s.cpu.priv .read false = true)
    (h : s.finishOut.emc.replies = .error x stat :: rest) : (s.loadCached a n multi).2 = freeBytes s.finishOut.free n := by
  rw [loadCached_allowed n multi hl hv hb (hram ▸ hp), if_neg (ne_true_of_eq_false ha), l2Read_external hram hl2 hm]
  have ht := tear_of_kind (extRead_failed_load a n s.cpu.priv h) a (s.extRead .loadFill a n s.cpu.priv).2
  show State.torn _ multi .load a _ = _
  unfold State.torn
  rw [ht, ite_self]
  exact extRead_failed .loadFill a n s.cpu.priv h

/-- No unit is read ahead for a line whose way still holds a dirty line. -/
theorem readyToFill_dirty {s : State} {a : Nat} {l : Line} (hm : s.mayAllocateL2 a = true) (hd : l.dirty = true)
    (hl : lineAt s.l2.lines (Machine.setOf .l2 s.l2Sets a) ((s.l2.order (Machine.setOf .l2 s.l2Sets a)).headD 0) = some l) :
    s.readyToFill a = false := by
  unfold State.readyToFill State.l2Victim
  rw [hm, hl, Option.filter_some_pos hd]
  simp

theorem buffersEmpty_eq_false {s : State} (h : s.l1d.wbuf ≠ [] ∨ s.l1d.victim ≠ none) : s.buffersEmpty = false := by
  unfold State.buffersEmpty
  rcases h with h | h
  · rw [show s.l1d.wbuf.isEmpty = false by simpa using h]; rfl
  · rw [Option.isNone_eq_false_iff.2 (Option.isSome_iff_ne_none.2 h), Bool.and_false]

/-- A line that takes a buffered write becomes dirty, and memory stays. -/
theorem l2Write_merges {s : State} {e : WbEntry} {l : Line} (hram : s.inL2Ram e.first = false) (hr : s.region e.first = .external)
    (hl : s.l2Lookup e.first = some l) (hp : s.allows (s.l2Perm e.first) s.plat.cpuId e.priv .write false = true) :
    (s.l2Write e).mem = s.mem ∧ (s.l2Write e).l2.lines =
      putLine s.l2.lines { l with data := overlay l.data (e.quad % 128) e.bytes, dirty := true } := by
  rw [l2Write_hit hram hr hl, if_pos hp]
  obtain ⟨r, er⟩ := l2_touch_eq (s.l2Merge l (e.quad % 128) e.bytes).l2 l.set l.way
  rw [er]
  exact ⟨rfl, rfl⟩

/-- Settles O49: the rules about hits, misses, the write buffer, denied accesses and L2 above. -/
theorem accessesThroughTheCaches : Obligations.AccessesThroughTheCaches := by
  intro s a hw
  refine ⟨fun hr => ⟨fun n multi => loadPiece_cached hr n multi, fun bs more => storePiece_cached hr bs more⟩, wakePages_frame s a,
    fun bs l hl hp more => ?storeHit, fun n l hl hp => ?loadHit, fun n multi l hl hp => ?loadHitDenied,
    fun bs more hl => ⟨storeCached_drains hl bs more, drainVictim_l1d s⟩, fun bs more hl hv => ?buffer,
    fun n multi hl => ⟨loadCached_drains hl n multi, drainAll_l1d s⟩, fun n multi hl hv hb hp => loadCached_denied n multi hl hv hb hp,
    fun e rest hv hb hram hp => drainOne_ram hw hv hb hram hp, fun n hl hv hb hram hline hp => ?loadRam,
    fun k n p l hram hl => l2Read_hit hram hl k n p, fun k n p hram hl hm hk => ?allocate, fun k n p hram hl hm => ?external,
    fun n multi x stat rest hl hv hb hram hl2 hm ha hp h => loadCached_failed multi hl hv hb hram hl2 hm ha hp h,
    fun n h => readAhead_none (unitNow_fill (by decide) n (.inl (buffersEmpty_eq_false h))),
    fun n l k hk hm hd hl => readAhead_none (unitNow_fill hk n (.inr (readyToFill_dirty hm hd hl))),
    fun e l hram hr hl hp => l2Write_merges hram hr hl hp⟩
  case storeHit =>
    rw [storeCached_hit hl, if_pos hp, l1d_touch_lines]
  case loadHit =>
    rw [loadCached_hit hl, if_pos hp]; rfl
  case loadHitDenied =>
    rw [loadCached_hit hl, if_neg (ne_true_of_eq_false hp)]
    exact deniedRead_eq ..
  case buffer =>
    intro new joins
    rw [storeCached_miss hl]
    refine ⟨fun e he hj => enqueue_joins hv a bs s.cpu.priv more he hj, fun hlen hj => ?_, fun hlen hj => ?_⟩
    · rw [enqueue_new hv a bs s.cpu.priv more hj, if_pos hlen]; rfl
    · rw [enqueue_new hv a bs s.cpu.priv more hj, if_neg (by omega), drainOne_l1d, ← hv]; rfl
  case loadRam =>
    have hcached := loadCached_allowed n false hl hv hb (hram ▸ hp)
    refine ⟨fun ha => ?_, fun ha => ?_⟩
    · rw [hcached, if_neg (ne_true_of_eq_false ha), l2Read_ram hram]; rfl
    · obtain ⟨hmem, hhead, hset, htag, hdirty, hdata, hperm⟩ := l1dAllocate_ram hline (s.l2Perm a) s.cpu.priv
      refine ⟨_, _, ?_, hmem, hhead, hset, htag, hdirty, hdata, hperm⟩
      rw [hcached, if_pos ha, hdata]; rfl
  case allocate =>
    intro out u hrep
    have hu : afterEviction s a = u := afterEviction_eq s a
    obtain ⟨hmem, hhead, hset, htag, hdirty, hdata⟩ := l2Allocate_spec (a := a) p hk (by rw [hu]; exact hrep)
    rw [hu] at hmem hdata
    refine ⟨_, _, ?_, hmem, hhead, hset, htag, hdirty, hdata⟩
    rw [l2Read_allocate hram hl hm, hdata]
  case external =>
    rw [l2Read_external hram hl hm]
    refine ⟨fun hk hrep => ⟨extRead_ok a n p hk hrep, ?_⟩, fun x stat rest h => extRead_failed k a n p h⟩
    obtain ⟨g, m, x, ws, e, -, -⟩ := extRead_frame s k a n p
    rw [e]

end Sys2Proof.Proofs.CachedAccess

/-!
PROOFS. `MARn` and the power-down pages of L2: the register writes, and the accesses that wake a page (spec/42_l2.md R317, R336 to
R339).
-/
namespace Sys2Proof.Proofs.PowerPages
open Sys2Proof Sys2Proof.Machine Sys2Proof.Proofs.L2Service Sys2Proof.Proofs.L2Cache Sys2Proof.Proofs.CpuAccess
  Sys2Proof.Proofs.Fetch Sys2Proof.Proofs.Dma

/-! ### The registers -/

/-- The two pages of a port take new bits, the others stay. -/
theorem setPort_getElem (w : Vector Bool 4) (n : Fin 2) (p0 p1 : Bool) (q : Fin 4) :
    ((w.set (pageIndex n 0) p0).set (pageIndex n 1) p1)[q] =
      if q.val = 2 * n.val then p0 else if q.val = 2 * n.val + 1 then p1 else w[q] := by
  show ((w.set (2 * n.val + 0) p0).set (2 * n.val + 1) p1)[q.val] = _
  rw [Vector.getElem_set, Vector.getElem_set]
  have hq : w[q.val] = w[q] := rfl
  by_cases h0 : q.val = 2 * n.val
  · rw [if_neg (by omega), if_pos (by omega), if_pos h0]
  · by_cases h1 : q.val = 2 * n.val + 1
    · rw [if_pos (by omega), if_neg h0, if_pos h1]
    · rw [if_neg (by omega), if_neg (by omega), if_neg h0, if_neg h1, hq]

/-- The same, where each new bit is made of the old one. -/
theorem setPort_map (w : Vector Bool 4) (n : Fin 2) (f g : Bool → Bool) (q : Fin 4) :
    ((w.set (pageIndex n 0) (f w[pageIndex n 0])).set (pageIndex n 1) (g w[pageIndex n 1]))[q] =
      if q.val = 2 * n.val then f w[q] else if q.val = 2 * n.val + 1 then g w[q] else w[q] := by
  rw [setPort_getElem]
  by_cases h0 : q.val = 2 * n.val
  · obtain rfl : pageIndex n 0 = q := Fin.ext h0.symm
    rw [if_pos h0, if_pos h0]
  · rw [if_neg h0, if_neg h0]
    by_cases h1 : q.val = 2 * n.val + 1
    · obtain rfl : pageIndex n 1 = q := Fin.ext h1.symm
      rw [if_pos h1]
    · rw [if_neg h1, if_neg h1]

/-! ### No page goes to sleep -/

/-- No page goes to sleep. -/
def KeepsAwake (s t : State) : Prop := ∀ q : Fin 4, t.l2.sleep[q] = true → s.l2.sleep[q] = true

theorem KeepsAwake.refl (s : State) : KeepsAwake s s := fun _ h => h

theorem KeepsAwake.trans {s t u : State} (h : KeepsAwake s t) (k : KeepsAwake t u) : KeepsAwake s u := fun q e => h q (k q e)

theorem KeepsAwake.of_l2 {s t : State} (h : t.l2 = s.l2) : KeepsAwake s t := fun q e => by rwa [h] at e

theorem keepsAwake_drainVictim (s : State) : KeepsAwake s s.drainVictim := by
  unfold State.drainVictim
  split
  · exact .refl s
  · next v _ => exact (served_l2WriteVictim (s.setL1d { s.l1d with victim := none }) v).sleep

theorem keepsAwake_drainOne (s : State) : KeepsAwake s s.drainOne := by
  refine (keepsAwake_drainVictim s).trans ?_
  unfold State.drainOne
  dsimp only
  split
  · exact .refl _
  · next e t _ => exact (served_l2Write (s.drainVictim.setL1d { s.drainVictim.l1d with wbuf := t }) e).sleep

theorem keepsAwake_drain (s : State) (n : Nat) : KeepsAwake s (s.drain n) := by
  induction n generalizing s with
  | zero => exact .refl s
  | succ n ih => exact (keepsAwake_drainOne s).trans (ih s.drainOne)

theorem keepsAwake_drainAll (s : State) : KeepsAwake s s.drainAll :=
  (keepsAwake_drainVictim s).trans (keepsAwake_drain s.drainVictim _)

theorem keepsAwake_deniedRead (s : State) (x : Block) (o : Origin) (a n : Nat) (p : Priv) (id : Nat) :
    KeepsAwake s (s.deniedRead x o a n p id).1 := (served_recordFault s x o a p .read id).sleep

theorem keepsAwake_l1dAllocate (s : State) (a : Nat) (m : BitVec 16) (p : Priv) : KeepsAwake s (s.l1dAllocate a m p).1 := by
  obtain ⟨ls, v, e⟩ := l1dEvict_frame s (Machine.setOf .l1d s.l1dSets a) ((s.l1d.lru.lookup (Machine.setOf .l1d s.l1dSets a)).getD 0)
  have h := (served_l2Read (s.l1dEvict (Machine.setOf .l1d s.l1dSets a)
    ((s.l1d.lru.lookup (Machine.setOf .l1d s.l1dSets a)).getD 0)) .loadFill (a / 64 * 64) 64 p).sleep
  exact KeepsAwake.trans (.of_l2 (by rw [e]; rfl)) h

theorem keepsAwake_loadMissed (s : State) (a n : Nat) (multi : Bool) : KeepsAwake s (loadMissed s a n multi).1 := by
  unfold loadMissed
  split
  · split
    · exact keepsAwake_l1dAllocate s a _ _
    · exact (served_l2Read ..).sleep
  · refine KeepsAwake.trans ?_ (keepsAwake_deniedRead _ _ _ _ _ _ _)
    split
    · exact (served_l2Probe ..).sleep
    · exact (served_l2Probe ..).sleep

theorem keepsAwake_loadCached (s : State) (a n : Nat) (multi : Bool) : KeepsAwake s (s.loadCached a n multi).1 := by
  cases hl : s.l1dLookup a with
  | none =>
    rw [loadCached_miss hl]
    exact (keepsAwake_drainAll s).trans (keepsAwake_loadMissed _ a n multi)
  | some l =>
    rw [loadCached_hit hl]
    split
    · exact .of_l2 rfl
    · exact keepsAwake_deniedRead s _ _ _ _ _ _

theorem keepsAwake_enqueue (s : State) (a : Nat) (bs : List Byte) (p : Priv) (more : Bool) :
    KeepsAwake s (s.enqueue a bs p more) := by
  refine (keepsAwake_drainVictim s).trans ?_
  unfold State.enqueue
  dsimp only
  split
  · split
    · exact .of_l2 rfl
    · split
      · exact .of_l2 rfl
      · exact (keepsAwake_drainOne s.drainVictim).trans (.of_l2 rfl)
  · exact .of_l2 rfl

theorem keepsAwake_storeCached (s : State) (a : Nat) (bs : List Byte) (more : Bool) : KeepsAwake s (s.storeCached a bs more) := by
  cases hl : s.l1dLookup a with
  | none =>
    rw [storeCached_miss hl]
    exact keepsAwake_enqueue s a bs _ more
  | some l =>
    rw [storeCached_hit hl]
    split
    · exact .of_l2 rfl
    · exact (served_recordFault ..).sleep

theorem keepsAwake_l1pFill (s : State) (a : Nat) : KeepsAwake s (s.l1pFill a).1 := by
  have h := (served_l2Read s .fetchFill a 32 s.cpu.priv).sleep
  unfold State.l1pFill
  dsimp only
  split
  · exact KeepsAwake.trans h (.of_l2 rfl)
  · exact h

theorem keepsAwake_fetchPermissionFault (s : State) (b : Nat) : KeepsAwake s (s.fetchPermissionFault b) := by
  rw [fetchPermissionFault_eq]
  exact .of_l2 rfl

theorem keepsAwake_snoopWrite (s : State) (a : Nat) (bs : List (Option Byte)) : KeepsAwake s (s.snoopWrite a bs) :=
  .of_l2 (by rw [(snoopWrite_spec s a bs).1])

/-! ### An access of L2 RAM -/

theorem woken_awake {s t u : State} {a : Nat} (h : Woken s a t) (k : KeepsAwake t u) : Woken s a u :=
  fun q e => h q (k q e)

theorem inL2Ram_of_region {s : State} {a : Nat} (h : s.region a = .l2Ram) : s.inL2Ram a = true := by
  unfold State.region at h
  split_ifs at h with h1 h2 h3 h4 h5 h6
  exact h6

theorem wakeForCpu_ram {s : State} {a : Nat} (h : s.region a = .l2Ram) : s.wakeForCpu a = s.wakePages a :=
  if_pos (inL2Ram_of_region h)

/-- A DMA-class access wakes the page after a victim has arrived. -/
theorem woken_drainVictim (s : State) (a : Nat) : Woken s a (s.drainVictim.wakePages a) := fun q h => by
  obtain ⟨h1, h2⟩ := woken_wakePages s.drainVictim a q h
  rw [drainVictim_plat] at h2
  exact ⟨keepsAwake_drainVictim s q h1, h2⟩

section
variable {s : State} {a : Nat} (h : s.region a = .l2Ram)
include h

theorem woken_fetchPacket {b : Nat} (hb : b / 32 * 32 = a) (hlt : b < 0x100000000) : ∃ t, s.fetchPacket b = .ok t ∧ Woken s a t := by
  have hw : Woken s a (s.wakeForCpu a) := by rw [wakeForCpu_ram h]; exact woken_wakePages s a
  have hr : s.region (b / 32 * 32) = .l2Ram ∨ s.region (b / 32 * 32) = .external := .inl (by rw [hb]; exact h)
  cases hl : s.l1pLookup (b / 32 * 32) with
  | some l =>
    refine ⟨_, fetchPacket_hit hlt hr hl, ?_⟩
    rw [hb]
    split
    · exact woken_awake hw (.of_l2 rfl)
    · exact woken_awake hw (keepsAwake_fetchPermissionFault _ a)
  | none =>
    refine ⟨_, fetchPacket_miss hlt hr hl, ?_⟩
    rw [hb]
    have hf := woken_awake hw (keepsAwake_l1pFill (s.wakeForCpu a) a)
    split
    · exact woken_awake hf (.of_l2 rfl)
    · exact woken_awake hf (keepsAwake_fetchPermissionFault _ a)

theorem woken_prefetchPacket {b : Nat} (hb : b / 32 * 32 = a) (hlt : b < 0x100000000) (hm : s.mayPrefetch a = true) :
    ∃ t, s.prefetchPacket b = .ok t ∧ Woken s a t := by
  have hw : Woken s a (s.wakeForCpu a) := by rw [wakeForCpu_ram h]; exact woken_wakePages s a
  unfold State.prefetchPacket
  dsimp only
  rw [if_neg (packet_below_top hlt), hb, hm, h]
  refine ⟨_, rfl, ?_⟩
  split
  · exact hw
  · exact woken_awake hw (keepsAwake_l1pFill (s.wakeForCpu a) a)

theorem woken_readAhead (k : AheadKind) (n : Nat) : s.readAhead k a n = s ∨ Woken s a (s.readAhead k a n) := by
  unfold State.readAhead
  split
  · split
    · refine .inr ?_
      rw [wakeForCpu_ram h]
      exact woken_awake (woken_wakePages s a) (.of_l2 (by cases k <;> rfl))
    · exact .inl rfl
  · exact .inl rfl

theorem woken_l2Write {e : WbEntry} (he : e.first = a) : Woken s a (s.l2Write e) := by
  subst he
  rw [l2Write_ram (inL2Ram_of_region h)]
  split
  · exact (woken_wakePages s e.first).served (served_putMasked ..)
  · exact (woken_wakePages s e.first).served (served_recordFault ..)

theorem woken_l2WriteVictim {v : Victim} (hv : v.addr = a) : Woken s a (s.l2WriteVictim v) := by
  subst hv
  unfold State.l2WriteVictim State.l2Take
  rw [if_pos (inL2Ram_of_region h)]
  exact (woken_wakePages s v.addr).served (served_putMasked ..)

end

/-- Settles O27: the register writes, then the accesses of L2 RAM in turn. -/
theorem marWritesAndPageSleep : Obligations.MarWritesAndPageSleep := by
  refine ⟨fun s v => ⟨fun h n => ?_, fun n => ⟨?_, ?_, rfl⟩⟩, fun s a h => ?_⟩
  · have he : exec (.marWrite n v) s =
        (if n.val ≤ 15 then s else s.setL2 { s.l2 with mar := s.l2.mar.set n (bit v 0) }).done := if_pos h
    rw [he]
    split
    · rfl
    · rfl
  · exact ⟨_, rfl, setPort_map s.l2.sleep n (fun b => b && !v.getLsbD 0) (fun b => b && !v.getLsbD 1)⟩
  · exact ⟨_, Config.freeBool s.free, Config.freeBool (s.free + 1), rfl, setPort_map s.l2.sleep n
      (fun b => b || (v.getLsbD 0 && Config.freeBool s.free)) (fun b => b || (v.getLsbD 1 && Config.freeBool (s.free + 1)))⟩
  · intro woken
    have hw : Woken s a (s.wakeForCpu a) := by rw [wakeForCpu_ram h]; exact woken_wakePages s a
    refine ⟨fun n multi => ⟨_, loadPiece_cached (.inl h) n multi, woken_awake hw (keepsAwake_loadCached _ a n multi)⟩,
      fun bs more => ⟨_, storePiece_cached (.inl h) bs more, woken_awake hw (keepsAwake_storeCached _ a bs more)⟩,
      fun b hb hlt => ⟨woken_fetchPacket h hb hlt, fun hm => woken_prefetchPacket h hb hlt hm⟩,
      fun k n => woken_readAhead h k n, fun e he => woken_l2Write h he, fun v hv => woken_l2WriteVictim h hv,
      fun id p n cfg bad => ⟨_, memReadAs_l2 h id p n cfg bad, ?_⟩, fun id p bs cfg bad => ⟨_, memWriteAs_l2 h id p bs cfg bad, ?_⟩⟩
    · split
      · exact woken_drainVictim s a
      · exact woken_awake (woken_drainVictim s a) (keepsAwake_deniedRead _ _ _ _ _ _ _)
    · split
      · exact woken_awake ((woken_drainVictim s a).served (served_putMasked ..)) (keepsAwake_snoopWrite _ _ _)
      · exact (woken_drainVictim s a).served (served_recordFault ..)

end Sys2Proof.Proofs.PowerPages
